-- ==== Sys2Proof/Word.lean ====
section
/-! DEFINITION. Word types of the shift-register scanner: the widths of `spec/00_scope.md` rule R11 and of the
host command word of `spec/30_encoding.md` rule R70. Nothing here computes. -/

namespace Sys2Proof

/-- One module of the Module Buffer: 8 bits, bit 0 least significant (R13, R21). -/
abbrev Byte := BitVec 8

/-- A time value, `now` or `LAST`: `TW = 32` bits, unsigned (R11). -/
abbrev Time := BitVec 32

/-- The level of a line or the value of a buffer bit: `true` is high, 1; `false` is low, 0 (R13, R18). -/
abbrev Level := Bool

/-- The 32-bit operand field `arg` of a host command word (R70). -/
abbrev Arg := BitVec 32

/-- A host command word: `op` in bits 33..32, `arg` in bits 31..0 (R70). -/
abbrev HostWord := BitVec 34

/-- `RD`, the one-bit result of a `READ` (R82). -/
abbrev Rd := BitVec 1

end Sys2Proof
end

