-- ==== Sys2Proof/Config.lean ====
section
/-! DEFINITION. What is fixed at construction (`spec/00_scope.md` rules R5 to R12), the names of the four lines, their
modes and the events of the event trace (R10, R15, R32), and the two free values the spec leaves open: the levels of the
outputs before `INIT` (U1, R172) and the level the environment puts on `DATA` (U11, R33). -/

namespace Sys2Proof

/-- An identifier of a GPIO line: the spec gives it neither width nor value (R10). -/
structure LineId where
  number : Nat
  deriving DecidableEq, Repr

/-- The four lines of the bus (R2, R10). -/
inductive Line where
  | data
  | clock
  | load
  | reset
  deriving DecidableEq, Repr

/-- The three lines with an output latch: there is no `OUT[DATA]` (R31). -/
inductive OutLine where
  | clock
  | load
  | reset
  deriving DecidableEq, Repr

/-- The configured mode of a line (R32). -/
inductive Mode where
  | unconfigured
  | output
  | inputPullup
  deriving DecidableEq, Repr

/-- One event of the event trace: a call of the GPIO capability (R15, R143 to R145). -/
inductive Event where
  /-- `CFG(line, mode)`. -/
  | cfg (line : Line) (mode : Mode)
  /-- `W(line, v)`: only the three outputs are ever written (R144). -/
  | write (line : OutLine) (v : Level)
  /-- `R(DATA)=b`: only `DATA` is ever read (R145). -/
  | read (b : Level)
  deriving DecidableEq, Repr

/-- The construction parameters and the fixed tick interval (R5, R6, R9, R10). All are constant from one hardware
reset to the next (R28). -/
structure Config where
  /-- `FIRST_VPIN`, the first virtual pin served (R5). -/
  firstVpin : Nat
  /-- `PIN_COUNT`, the number of virtual pins served (R6). -/
  pinCount : Nat
  /-- `INTERVAL`, the tick interval (R9). -/
  interval : Nat
  /-- The identifier of the `DATA` line (R10). -/
  dataLine : LineId
  /-- The identifier of the `CLOCK` line (R10). -/
  clockLine : LineId
  /-- The identifier of the `LOAD` line (R10). -/
  loadLine : LineId
  /-- The identifier of the `RESET` line (R10). -/
  resetLine : LineId
  deriving DecidableEq, Repr

/-- FREE VALUE. The level of each output latch between hardware reset and `INIT`: R37 says "unspecified (any value)",
R172 that a model must not assume any level (U1; log entry 3). -/
opaque Config.outAtReset : OutLine → Level

/-- FREE VALUE. The level the environment answers to a `GpioRead(DATA)` that no queued answer serves: a function of the
whole event trace so far, under no law (R33, R145, U11; log entry 4). -/
opaque Config.dataLevel : List Event → Level

end Sys2Proof
end

