-- ==== Sys2Proof/Syntax.lean ====
section
/-! DEFINITION. The instructions: the four host operations of `spec/30_encoding.md` rule R70 and the fourteen phase
micro-operations of its rule R74, one constructor per row of `spec/opcode_table.json`. -/

namespace Sys2Proof

/-- One row of the opcode table. Phase micro-operations have no operand fields (R77). -/
inductive Instr where
  /-- `HNOP` (R142); `arg` is ignored (R73). -/
  | hnop (arg : Arg)
  /-- `INIT` (R141); `arg` is ignored (R73). -/
  | init (arg : Arg)
  /-- `STEP now` (R90); `now` is an absolute time (R72). -/
  | step (now : Time)
  /-- `READ vpin` (R130). `vpin` is any integer, so that the range check can be taken over all integers as R134 asks;
  a command word carries `0 .. 2^32 - 1` (R73, `Instr.wellFormed`). -/
  | read (vpin : Int)
  /-- `IDLE.0`, phase 0 (R101). -/
  | idle0
  /-- `IDLE.1`, phase 1 (R102). -/
  | idle1
  /-- `IDLE.2`, phase 2 (R103). -/
  | idle2
  /-- `LOAD_STROBE`, phase 3 (R104). -/
  | loadStrobe
  /-- `FIRST_CLOCK`, phase 4 (R105). -/
  | firstClock
  /-- `FIRST_SAMPLE`, phase 5 (R106). -/
  | firstSample
  /-- `HOLD.6`, phase 6 (R107). -/
  | hold6
  /-- `HOLD.7`, phase 7 (R108). -/
  | hold7
  /-- `HOLD.8`, phase 8 (R109). -/
  | hold8
  /-- `RESET_PULSE_START`, phase 9 (R110). -/
  | resetPulseStart
  /-- `RESET_PULSE_END`, phase 10 (R111). -/
  | resetPulseEnd
  /-- `LOAD_RELEASE`, phase 11 (R112). -/
  | loadRelease
  /-- `SHIFT_CLOCK`, every even phase from 12 (R113). -/
  | shiftClock
  /-- `SHIFT_SAMPLE`, every odd phase from 13 (R114). -/
  | shiftSample
  deriving DecidableEq, Repr

end Sys2Proof
end

