-- ==== Sys2Proof/WellFormed.lean ====
section
/-! DEFINITION. What is well formed: an instruction whose operand fits its field (`spec/30_encoding.md` R72, R73), and
the legal construction parameters (`spec/70_reset_and_hazards.md` R174). -/

namespace Sys2Proof

/-- `i` can be written as a command word or a phase value. Only `READ` has an operand wider than its field: `vpin` must
lie in `0 .. 2^32 - 1` (R73). Every other operand has exactly the width of its field. -/
def Instr.wellFormed (i : Instr) : Bool :=
  match i with
  | .read vpin => decide (0 ≤ vpin) && decide (vpin < 2 ^ 32)
  | .hnop _ => true
  | .init _ => true
  | .step _ => true
  | .idle0 => true
  | .idle1 => true
  | .idle2 => true
  | .loadStrobe => true
  | .firstClock => true
  | .firstSample => true
  | .hold6 => true
  | .hold7 => true
  | .hold8 => true
  | .resetPulseStart => true
  | .resetPulseEnd => true
  | .loadRelease => true
  | .shiftClock => true
  | .shiftSample => true

/-- The four line identifiers are pairwise distinct (R10). -/
def Config.linesDistinct (c : Config) : Bool :=
  decide ([c.dataLine, c.clockLine, c.loadLine, c.resetLine].Nodup)

/-- The served pins lie below `2^VW`, `VW = 16` (R5). -/
def Config.pinsInRange (c : Config) : Bool :=
  decide (c.firstVpin + c.pinCount ≤ 2 ^ 16)

/-- `1 <= INTERVAL < 2^TW`, `TW = 32` (R9). -/
def Config.intervalInRange (c : Config) : Bool :=
  decide (1 ≤ c.interval) && decide (c.interval < 2 ^ 32)

/-- The construction parameters are legal (R174). -/
def Config.legal (c : Config) : Bool :=
  decide (0 < c.pinCount) && c.pinsInRange && c.linesDistinct && c.intervalInRange

end Sys2Proof
end

