-- ==== Sys2Proof/Decode.lean ====
section
/-! DEFINITION. The two decodes of `spec/30_encoding.md`: host command words (format `H`, R70, R71) and phase values
(format `P`, R74, R75); the encoder beside them; the mask and match of every row of `spec/opcode_table.json`. -/

namespace Sys2Proof

/-- Why a word of the opcode table is no instruction. The hardware itself has no illegal encoding (R78); these name
words that are of neither format. -/
inductive DecodeError where
  /-- The width is that of neither format: 34 bits (40 as whole bytes) for `H`, 32 bits for `P`. -/
  | noSuchFormat
  /-- A host command word with a bit set above bit 33. -/
  | hostWordTooWide
  /-- A phase value with a bit set above bit 31. -/
  | phaseTooWide
  deriving DecidableEq, Repr

/-- One entry for each phase micro-operation: what the phase decode selects from (R74). -/
structure PhaseTable (α : Type) where
  idle0 : α
  idle1 : α
  idle2 : α
  loadStrobe : α
  firstClock : α
  firstSample : α
  hold6 : α
  hold7 : α
  hold8 : α
  resetPulseStart : α
  resetPulseEnd : α
  loadRelease : α
  shiftClock : α
  shiftSample : α

/-- THE phase decode, total over the whole phase space: values 0 to 11 by equality, every other by parity (R75). The
decoder and the sequencer both select with it. -/
def PhaseTable.select {α : Type} (t : PhaseTable α) (p : Nat) : α :=
  match p with
  | 0 => t.idle0
  | 1 => t.idle1
  | 2 => t.idle2
  | 3 => t.loadStrobe
  | 4 => t.firstClock
  | 5 => t.firstSample
  | 6 => t.hold6
  | 7 => t.hold7
  | 8 => t.hold8
  | 9 => t.resetPulseStart
  | 10 => t.resetPulseEnd
  | 11 => t.loadRelease
  | p => if p % 2 = 0 then t.shiftClock else t.shiftSample

/-- The instruction of each phase micro-operation. -/
def phaseInstrs : PhaseTable Instr where
  idle0 := .idle0
  idle1 := .idle1
  idle2 := .idle2
  loadStrobe := .loadStrobe
  firstClock := .firstClock
  firstSample := .firstSample
  hold6 := .hold6
  hold7 := .hold7
  hold8 := .hold8
  resetPulseStart := .resetPulseStart
  resetPulseEnd := .resetPulseEnd
  loadRelease := .loadRelease
  shiftClock := .shiftClock
  shiftSample := .shiftSample

/-- The micro-operation that phase `p` selects (R74). -/
def decodePhase (p : Nat) : Instr :=
  phaseInstrs.select p

/-- The field `op`, bits 33..32 of a host command word (R70). -/
def hostOp (w : HostWord) : BitVec 2 :=
  w.extractLsb' 32 2

/-- The field `arg`, bits 31..0 of a host command word (R70). -/
def hostArg (w : HostWord) : Arg :=
  w.extractLsb' 0 32

/-- The host operation of a command word: all four values of `op` are assigned (R71). -/
def decodeHost (w : HostWord) : Instr :=
  if hostOp w = 0b00#2 then .hnop (hostArg w)
  else if hostOp w = 0b01#2 then .init (hostArg w)
  else if hostOp w = 0b10#2 then .step (hostArg w)
  else .read (hostArg w).toNat

/-- The instruction of a table word of `nbits` bits: format `H` for 34 bits (the opcode table's width, 40 in whole
bytes), format `P` for 32. -/
def decodeWord (nbits w : Nat) : Except DecodeError Instr :=
  if nbits = 34 ∨ nbits = 40 then
    if w < 2 ^ 34 then .ok (decodeHost (BitVec.ofNat 34 w)) else .error .hostWordTooWide
  else if nbits = 32 then
    if w < 2 ^ 32 then .ok (decodePhase w) else .error .phaseTooWide
  else .error .noSuchFormat

/-- `decodeWord` with the reason of a refusal dropped, as the host reads it. -/
def decodeTableWord (nbits w : Nat) : Option Instr :=
  match decodeWord nbits w with
  | .ok i => some i
  | .error _ => none

/-- A word and its width in bits. -/
structure CodeWord where
  width : Nat
  value : Nat
  deriving DecidableEq, Repr

/-- The host command word with selector `op` and operand `arg` (R70). -/
def hostWord (op : BitVec 2) (arg : Arg) : HostWord :=
  op ++ arg

/-- The same as a code word of format `H`. -/
def hostCode (op : BitVec 2) (arg : Arg) : CodeWord :=
  { width := 34, value := (hostWord op arg).toNat }

/-- A phase value as a code word of format `P`, `PW = 32`. -/
def phaseCode (p : Nat) : CodeWord :=
  { width := 32, value := p }

/-- The words of an instruction, from the tables R71 and R74. A `SHIFT` micro-operation has many phase values; its code
here is the lowest, 12 or 13. -/
def encode (i : Instr) : CodeWord :=
  match i with
  | .hnop arg => hostCode 0b00#2 arg
  | .init arg => hostCode 0b01#2 arg
  | .step now => hostCode 0b10#2 now
  | .read vpin => hostCode 0b11#2 (BitVec.ofInt 32 vpin)
  | .idle0 => phaseCode 0
  | .idle1 => phaseCode 1
  | .idle2 => phaseCode 2
  | .loadStrobe => phaseCode 3
  | .firstClock => phaseCode 4
  | .firstSample => phaseCode 5
  | .hold6 => phaseCode 6
  | .hold7 => phaseCode 7
  | .hold8 => phaseCode 8
  | .resetPulseStart => phaseCode 9
  | .resetPulseEnd => phaseCode 10
  | .loadRelease => phaseCode 11
  | .shiftClock => phaseCode 12
  | .shiftSample => phaseCode 13

/-- Width, mask and match of a row of the opcode table, and the lowest value its side condition admits
("`p >= 12` (no exact row matched)" for the two `SHIFT` rows, 0 elsewhere). -/
structure OpcodeRow where
  width : Nat
  mask : Nat
  pattern : Nat
  least : Nat
  deriving DecidableEq, Repr

/-- A row of format `H`: the mask covers the two bits of `op`. -/
def hostRow (op : Nat) : OpcodeRow :=
  { width := 34, mask := 0x300000000, pattern := op * 0x100000000, least := 0 }

/-- An exact row of format `P`: the mask is full (R75). -/
def exactRow (p : Nat) : OpcodeRow :=
  { width := 32, mask := 0xFFFFFFFF, pattern := p, least := 0 }

/-- A `SHIFT` row of format `P`: the mask is bit 0 alone, from phase 12 (R75). -/
def parityRow (bit : Nat) : OpcodeRow :=
  { width := 32, mask := 0x00000001, pattern := bit, least := 12 }

/-- The row of an instruction in `spec/opcode_table.json`. -/
def opcodeRow (i : Instr) : OpcodeRow :=
  match i with
  | .hnop _ => hostRow 0
  | .init _ => hostRow 1
  | .step _ => hostRow 2
  | .read _ => hostRow 3
  | .idle0 => exactRow 0
  | .idle1 => exactRow 1
  | .idle2 => exactRow 2
  | .loadStrobe => exactRow 3
  | .firstClock => exactRow 4
  | .firstSample => exactRow 5
  | .hold6 => exactRow 6
  | .hold7 => exactRow 7
  | .hold8 => exactRow 8
  | .resetPulseStart => exactRow 9
  | .resetPulseEnd => exactRow 10
  | .loadRelease => exactRow 11
  | .shiftClock => parityRow 0
  | .shiftSample => parityRow 1

/-- Word `c` is one of row `r`: its width, its masked bits and its side condition. -/
def OpcodeRow.admits (r : OpcodeRow) (c : CodeWord) : Bool :=
  decide (c.width = r.width) && decide (c.value < 2 ^ r.width) && decide (c.value &&& r.mask = r.pattern)
    && decide (r.least ≤ c.value)

end Sys2Proof
end

