-- ==== Sys2Proof/Machine/Params.lean ====
section
/-! DEFINITION. The quantities derived from the construction parameters (`spec/00_scope.md` rules R7, R8), and the
configuration and reset parameters `State.reset` is built with. -/

namespace Sys2Proof.Machine

/-- `N = ceil(PIN_COUNT / 8)`, by the explicit formula R7 makes mandatory. -/
def moduleCount (pinCount : Nat) : Nat :=
  (pinCount + 7) / 8

/-- `TOTAL_PHASES = 12 + 2 * (8 * N - 1)`, the phase steps of one full scan (R8). No rule compares against it. -/
def totalPhases (n : Nat) : Nat :=
  12 + 2 * (8 * n - 1)

/-- The contents of the Module Buffer after hardware reset: `N` modules, "allocated once" (R21, R37). -/
def bufferAtReset (n : Nat) (bufInit : Nat → Byte) : List Byte :=
  (List.range n).map bufInit

/-- DESIGN CHOICE (log entry 2). The configuration `State.reset` is constructed with: the spec gives `INTERVAL` its
default (R9) and no default for the pin range and the line identifiers; these are those of Scenario A (`spec/95`, S5). -/
def defaultConfig : Config where
  firstVpin := 0
  pinCount := 8
  interval := 400
  dataLine := ⟨0⟩
  clockLine := ⟨1⟩
  loadLine := ⟨2⟩
  resetLine := ⟨3⟩

/-- `BUF_INIT`'s default, all zero (R12). -/
def defaultBufInit (_ : Nat) : Byte :=
  0

/-- `LAST_INIT`'s default (R12). -/
def defaultLastInit : Time :=
  0

end Sys2Proof.Machine

namespace Sys2Proof

/-- `N` of a configuration (R7). -/
def Config.modules (c : Config) : Nat :=
  Machine.moduleCount c.pinCount

/-- `TOTAL_PHASES` of a configuration (R8). -/
def Config.phases (c : Config) : Nat :=
  Machine.totalPhases c.modules

end Sys2Proof
end

