-- ==== Sys2Proof/Machine/State.lean ====
section
/-! DEFINITION. The state of one instance (`spec/10_state.md` rule R20), with the construction constants beside it and
the two ends of its host interface and of its `DATA` line as plain data; the reasons a step can stop; hardware reset. -/

namespace Sys2Proof.Machine

/-- The state. From `buf` to `inited` it is the tuple of R20, "and nothing else is state"; `cfg` holds the parameters of
the step (R28), which nothing writes. The last five fields are the MODEL's own (log entries 4, 5, 6, 24): what the
host and the environment are about to put in, what the hardware has put out, and the time the contract is kept against. -/
structure State where
  /-- The construction constants (R28). -/
  cfg : Config
  /-- `BUF[0..N-1]`, the Module Buffer: module `m` is element `m` (R21). -/
  buf : List Byte
  /-- `PHASE`, the Cycle Phase Counter: `PW` bits, held as a natural number as R11 allows (R23). -/
  phase : Nat
  /-- `MCOUNT`, the Module Write Cursor: `MW` bits, held as a natural number as R11 allows (R25). -/
  mcount : Nat
  /-- `PCOUNT`, the Bit Write Cursor: 3 bits (R26). -/
  pcount : Fin 8
  /-- `LAST`, the "last advance" timestamp (R27). -/
  last : Time
  /-- `OUT[CLOCK]` (R31). -/
  outClock : Level
  /-- `OUT[LOAD]` (R31). -/
  outLoad : Level
  /-- `OUT[RESET]` (R31). -/
  outReset : Level
  /-- `DIR[DATA]` (R32). -/
  dirData : Mode
  /-- `DIR[CLOCK]` (R32). -/
  dirClock : Mode
  /-- `DIR[LOAD]` (R32). -/
  dirLoad : Mode
  /-- `DIR[RESET]` (R32). -/
  dirReset : Mode
  /-- `INITED`, the contract flag (R30). -/
  inited : Bool
  /-- MODEL: the host command words the host will issue, oldest first (R63, R154). -/
  commands : List HostWord
  /-- MODEL: levels the environment will answer with, oldest first: the `.data` queue of R80 (R145). -/
  dataIn : List Level
  /-- MODEL: the event trace so far, oldest first (R15, R33). -/
  trace : List Event
  /-- MODEL: the results returned to the host so far, oldest first (R82). -/
  results : List Rd
  /-- MODEL: the `now` of the preceding `STEP`, due or not, none before the first: "model bookkeeping, not hardware state"
  (`spec/93` section 2). -/
  prevNow : Option Time
  deriving DecidableEq, Repr

/-- The faults. There is none: "There are no exceptions or recoverable-error paths in the core" (R150), "the hardware has
no `fault` and no `stuck` outcome" (`spec/93`). -/
inductive Fault where
  deriving DecidableEq, Repr

/-- The refusals: inputs outside the contract, to which the spec tells the model to give no meaning (R16; the closed list
of `spec/93` section 2). Every one is SAFE: nothing can be proved of a run that contains it. -/
inductive Refusal where
  /-- Raised by `exec` for an instruction without a meaning; no arm does. Safe. -/
  | notModelled (mnemonic : String)
  /-- Raised by construction with `PIN_COUNT = 0` (R174, U5). Safe. -/
  | pinCountZero
  /-- Raised by construction with `FIRST_VPIN + PIN_COUNT > 2^VW` (R5, U14). Safe. -/
  | pinRangeTooLarge
  /-- Raised by construction with two line identifiers equal (R10, U13). Safe. -/
  | linesNotDistinct
  /-- Raised by construction with `INTERVAL = 0` or `INTERVAL >= 2^TW` (R9, `spec/93` section 2). Safe. -/
  | intervalOutOfRange
  /-- Raised by `STEP` while `INITED = 0` (R90, U2). Safe. -/
  | stepBeforeInit
  /-- Raised by `STEP` when `(now - previous now) mod 2^TW >= 2^(TW-1)` (R16, R97, U4; log entry 9). Safe. -/
  | timeNotMonotonic
  /-- Raised by a sampling event with `MCOUNT >= N`, which no run from hardware reset reaches (R123, U7). Safe. -/
  | cursorOutOfRange
  deriving DecidableEq, Repr

/-- The state at the table of R37: the instance with parameters `c`, before any host operation. The levels of the outputs
are an argument because R37 leaves them unspecified. -/
def State.constructed (c : Config) (bufInit : Nat → Byte) (lastInit : Time) (outInit : OutLine → Level) : State where
  cfg := c
  buf := bufferAtReset c.modules bufInit
  phase := 0
  mcount := 0
  pcount := 0
  last := lastInit
  outClock := outInit .clock
  outLoad := outInit .load
  outReset := outInit .reset
  dirData := .unconfigured
  dirClock := .unconfigured
  dirLoad := .unconfigured
  dirReset := .unconfigured
  inited := false
  commands := []
  dataIn := []
  trace := []
  results := []
  prevNow := none

/-- Hardware reset, the document's "construction" (R170), refused on illegal parameters (R174). -/
def State.construct (c : Config) (bufInit : Nat → Byte) (lastInit : Time) (outInit : OutLine → Level) :
    Host.Outcome State Fault Refusal :=
  if c.pinCount = 0 then .refused .pinCountZero
  else if c.pinsInRange = false then .refused .pinRangeTooLarge
  else if c.linesDistinct = false then .refused .linesNotDistinct
  else if c.intervalInRange = false then .refused .intervalOutOfRange
  else .next (State.constructed c bufInit lastInit outInit)

/-- The machine right after hardware reset with the default parameters (log entry 2). -/
def State.reset : State :=
  State.constructed defaultConfig defaultBufInit defaultLastInit Config.outAtReset

end Sys2Proof.Machine
end

