-- ==== Sys2Proof/Machine/Operands.lean ====
section
/-! DEFINITION. Operand assembly: the five computations of `spec/00_scope.md` rule R17 that a host operation makes of its
operand or of the cursors (R76, R77, R52), and the model's own check of its operand against the contract (R97). -/

namespace Sys2Proof.Machine

/-- `elapsed = (now - LAST) mod 2^TW`, the only modular subtraction (R91). -/
def elapsed (s : State) (now : Time) : Nat :=
  (now - s.last).toNat

/-- `now` does not run backwards from the `now` of the preceding `STEP`, if there was one: `(now - previous now) mod 2^TW <
2^(TW-1)` (R97, R180, `spec/93` section 2). -/
def timeMonotonic (prev : Option Time) (now : Time) : Bool :=
  prev.all fun before => decide ((now - before).toNat < 2 ^ 31)

/-- `pin = vpin - FIRST_VPIN`, over the integers (R131). -/
def pinOffset (s : State) (vpin : Int) : Int :=
  vpin - (s.cfg.firstVpin : Int)

/-- `vpin` is served: `0 <= pin < PIN_COUNT` (R131). -/
def served (s : State) (vpin : Int) : Bool :=
  decide (0 ≤ pinOffset s vpin) && decide (pinOffset s vpin < (s.cfg.pinCount : Int))

/-- The buffer bit address the next sampled bit is written to: `8 * MCOUNT + PCOUNT` (R26, R52). It is also the number of
sampling events done in the scan in progress. -/
def position (s : State) : Nat :=
  8 * s.mcount + s.pcount.val

/-- The earliest time at which a `STEP` is due: `(LAST + INTERVAL) mod 2^TW` (R81). -/
def tickTime (s : State) : Time :=
  s.last + BitVec.ofNat 32 s.cfg.interval

end Sys2Proof.Machine
end

