-- ==== Sys2Proof/Machine/Flags.lean ====
section
/-! DEFINITION. The hardware has no status flags, condition codes or predicate registers; "the two conditions that steer
it are computed where they are used and are not stored" (`spec/10_state.md` rule R29). These are the two. -/

namespace Sys2Proof.Machine

/-- The gate condition of `STEP`: `elapsed >= INTERVAL` (R92, R93). -/
def due (s : State) (now : Time) : Bool :=
  decide (s.cfg.interval ≤ elapsed s now)

/-- The end-of-scan condition: `MCOUNT = N` (R118). -/
def endOfScan (s : State) : Bool :=
  decide (s.mcount = s.cfg.modules)

end Sys2Proof.Machine
end

