-- ==== Sys2Proof/Machine/Ops.lean ====
section
/-! DEFINITION. The named operations over the state: the three primitives of the GPIO capability (`spec/44` R143 to R145),
the bit access to the Module Buffer (R14), the sampling event (R115 to R117), the common tail of a phase step (R118,
R119), and how a host operation is fetched. The hardware takes no exception and returns from none (R150, R155, R158), so
there is no operation for either. -/

namespace Sys2Proof.Machine

/-! ### The GPIO capability -/

/-- The level an output line carries, the content of its latch (R31). -/
def outLevel (s : State) (l : OutLine) : Level :=
  match l with
  | .clock => s.outClock
  | .load => s.outLoad
  | .reset => s.outReset

/-- The configured mode of a line (R32). -/
def lineMode (s : State) (l : Line) : Mode :=
  match l with
  | .data => s.dirData
  | .clock => s.dirClock
  | .load => s.dirLoad
  | .reset => s.dirReset

/-- `GpioCfg(line, mode)`: sets `DIR[line]` and appends its event (R143). -/
def gpioCfg (l : Line) (m : Mode) (s : State) : State :=
  { s with
    dirData := if l = .data then m else s.dirData
    dirClock := if l = .clock then m else s.dirClock
    dirLoad := if l = .load then m else s.dirLoad
    dirReset := if l = .reset then m else s.dirReset
    trace := s.trace ++ [.cfg l m] }

/-- `GpioWrite(line, v)`: sets `OUT[line]` and appends its event, also when the latch already holds `v` (R144). -/
def gpioWrite (l : OutLine) (v : Level) (s : State) : State :=
  { s with
    outClock := if l = .clock then v else s.outClock
    outLoad := if l = .load then v else s.outLoad
    outReset := if l = .reset then v else s.outReset
    trace := s.trace ++ [.write l v] }

/-- The level the environment answers at this point of the event trace: the next queued answer, or the free value of the
trace so far (R33, R145; log entry 4). -/
def dataAnswer (s : State) : Level :=
  match s.dataIn with
  | b :: _ => b
  | [] => Config.dataLevel s.trace

/-- The effect of `GpioRead(DATA)`: the answer is taken and its event appended (R145). -/
def gpioRead (s : State) : State :=
  { s with
    dataIn := s.dataIn.tail
    trace := s.trace ++ [.read (dataAnswer s)] }

/-! ### The Module Buffer -/

/-- Bit `p` of module `m`, `BUF[m][p]` (R13). -/
def bufBit (buf : List Byte) (m p : Nat) : Level :=
  (buf.getD m 0).getLsbD p

/-- Byte `x` with bit `p` set to `v` and no other bit changed. -/
def setBit (x : Byte) (p : Nat) (v : Level) : Byte :=
  if v then x ||| BitVec.twoPow 8 p else x &&& ~~~(BitVec.twoPow 8 p)

/-- `MemRead(a, 1)`: the buffer bit at bit address `a`, `BUF[a div 8][a mod 8]` (R14). -/
def memRead (buf : List Byte) (a : Nat) : Level :=
  bufBit buf (a / 8) (a % 8)

/-- `MemWrite(a, 1, v)`: writes `BUF[a div 8][a mod 8]` and changes no other bit (R14). -/
def memWrite (buf : List Byte) (a : Nat) (v : Level) : List Byte :=
  buf.set (a / 8) (setBit (buf.getD (a / 8) 0) (a % 8) v)

/-- The bit write of a sampling event, at the cursors before their advance (R116). -/
def writeSample (v : Level) (s : State) : State :=
  { s with buf := memWrite s.buf (position s) v }

/-! ### The sampling event and the tail of a phase step -/

/-- `AdvanceCursors()` (R117). -/
def advanceCursors (s : State) : State :=
  { s with
    mcount := if s.pcount = 7 then s.mcount + 1 else s.mcount
    pcount := if s.pcount = 7 then 0 else s.pcount + 1 }

/-- `Sample()`: lower the clock, THEN read the data line, write the bit, advance the cursors (R115, R176). -/
def sample (s : State) : State :=
  let s₁ := gpioWrite .clock false s
  advanceCursors (writeSample (dataAnswer s₁) (gpioRead s₁))

/-- `EndOfScanReset()`: the phase and the cursors return to 0, then the three outputs are forced low (R118). `BUF` and
`LAST` are not touched. The order of the three writes is decision D13's. -/
def endOfScanReset (s : State) : State :=
  gpioWrite .reset false (gpioWrite .clock false (gpioWrite .load false
    { s with phase := 0, mcount := 0, pcount := 0 }))

/-- The increment of `PHASE` (R119). -/
def incrementPhase (s : State) : State :=
  { s with phase := s.phase + 1 }

/-- The common tail of every phase step: the increment, then the end-of-scan check (R100 parts 2 and 3). -/
def finishPhase (s : State) : State :=
  if endOfScan (incrementPhase s) then endOfScanReset (incrementPhase s) else incrementPhase s

/-- A phase without an action: `IDLE` and `HOLD` (R101 to R103, R107 to R109). -/
def quietPhase (s : State) : Host.Outcome State Fault Refusal :=
  .next (finishPhase s)

/-- A phase that writes one output line (R104, R105, R110 to R113). -/
def writePhase (l : OutLine) (v : Level) (s : State) : Host.Outcome State Fault Refusal :=
  .next (finishPhase (gpioWrite l v s))

/-- A sampling phase (R106, R114). With `MCOUNT >= N` there is no buffer bit to write and the spec refuses the step
(R123); no run from hardware reset reaches such a state. -/
def samplePhase (s : State) : Host.Outcome State Fault Refusal :=
  if s.mcount < s.cfg.modules then .next (finishPhase (sample s)) else .refused .cursorOutOfRange

/-! ### Host operations: issuing, fetching, returning -/

/-- `LAST <- now` (R93). -/
def recordTime (now : Time) (s : State) : State :=
  { s with last := now }

/-- The `now` of a `STEP`, due or not, is kept for the contract check of the next one (`spec/93` section 2). -/
def noteTime (now : Time) (s : State) : State :=
  { s with prevNow := some now }

/-- `rd` returned to the host (R82). -/
def returnResult (rd : Rd) (s : State) : State :=
  { s with results := s.results ++ [rd] }

/-- The oldest host command word is taken. -/
def takeCommand (s : State) : State :=
  { s with commands := s.commands.tail }

/-- The next host operation and the state with its word taken, or nothing when the host issues none (R63, R154). -/
def fetch (s : State) : Option (Instr × State) :=
  match s.commands with
  | [] => none
  | w :: _ => some (decodeHost w, takeCommand s)

/-- `w` as the next host command word. For a `STEP` the contract is met too, as an `INIT` just before it would have left it:
the flag is set, since R90 refuses a `STEP` without it, and no `STEP` precedes it (log entry 7). -/
def placeCommand (w : HostWord) (s : State) : State :=
  { s with
    inited := s.inited || decide (hostOp w = 0b10#2)
    prevNow := if hostOp w = 0b10#2 then none else s.prevNow
    commands := w :: s.commands }

/-- `p` as the phase the next step performs: `PHASE = p`, and the next host command a `STEP` that is due (R81, R93). -/
def placePhase (p : Nat) (s : State) : State :=
  placeCommand (hostWord 0b10#2 (tickTime s)) { s with phase := p }

end Sys2Proof.Machine
end

