-- ==== Sys2Proof/Machine/Lifecycle.lean ====
section
/-! DEFINITION. The lifecycle family (`spec/44_lifecycle_gpio.md`): `HNOP` and `INIT`. -/

namespace Sys2Proof.Machine

/-- `HNOP`: `skip` (R142); `arg` is ignored (R73). -/
def execHnop (_arg : Arg) (s : State) : Host.Outcome State Fault Refusal :=
  .next s

/-- The four configurations of `INIT`, in the order of decision D14 (R141). -/
def configureLines (s : State) : State :=
  gpioCfg .reset .output (gpioCfg .load .output (gpioCfg .clock .output (gpioCfg .data .inputPullup s)))

/-- The three writes of `INIT`, in the order of decision D14 (R141). -/
def driveOutputsLow (s : State) : State :=
  gpioWrite .reset false (gpioWrite .clock false (gpioWrite .load false s))

/-- The whole effect of `INIT`: configure the four lines, drive the three outputs low, set `INITED` (R141). -/
def initialise (s : State) : State :=
  { driveOutputsLow (configureLines s) with inited := true }

/-- `INIT` (R141). The rule is total: a repeated `INIT` has the same effect (R148; log entry 8). `arg` is ignored
(R73). -/
def execInit (_arg : Arg) (s : State) : Host.Outcome State Fault Refusal :=
  .next (initialise s)

end Sys2Proof.Machine
end

