-- ==== Sys2Proof/Machine/Mapper.lean ====
section
/-! DEFINITION. The pinbuffer mapper (`spec/43_pin_mapper.md`): `READ`. -/

namespace Sys2Proof.Machine

/-- The level of virtual pin `vpin`, any integer: 0 when it is not served (R131), else bit `pin mod 8` of module
`pin div 8` (R132). -/
def readPin (s : State) (vpin : Int) : Level :=
  if served s vpin then memRead s.buf (pinOffset s vpin).toNat else false

/-- `READ vpin`: returns one bit to the host and changes no state element of the hardware (R130, R133). -/
def execRead (vpin : Int) (s : State) : Host.Outcome State Fault Refusal :=
  .next (returnResult (BitVec.ofBool (readPin s vpin)) s)

end Sys2Proof.Machine
end

