-- ==== Sys2Proof/Machine/Sequencer.lean ====
section
/-! DEFINITION. The phase micro-operations (`spec/42_phase_sequencer.md`): each is one whole phase step, its action and
then the common tail; and the phase step that `STEP` performs, which selects one of them by `PHASE` (R100). -/

namespace Sys2Proof.Machine

/-- `IDLE.0` (R101). -/
def execIdle0 (s : State) : Host.Outcome State Fault Refusal := quietPhase s

/-- `IDLE.1` (R102). -/
def execIdle1 (s : State) : Host.Outcome State Fault Refusal := quietPhase s

/-- `IDLE.2` (R103). -/
def execIdle2 (s : State) : Host.Outcome State Fault Refusal := quietPhase s

/-- `LOAD_STROBE`: raise `LOAD` (R104). -/
def execLoadStrobe (s : State) : Host.Outcome State Fault Refusal := writePhase .load true s

/-- `FIRST_CLOCK`: raise `CLOCK` (R105). -/
def execFirstClock (s : State) : Host.Outcome State Fault Refusal := writePhase .clock true s

/-- `FIRST_SAMPLE`: `Sample()` at the cursors (R106). -/
def execFirstSample (s : State) : Host.Outcome State Fault Refusal := samplePhase s

/-- `HOLD.6` (R107). -/
def execHold6 (s : State) : Host.Outcome State Fault Refusal := quietPhase s

/-- `HOLD.7` (R108). -/
def execHold7 (s : State) : Host.Outcome State Fault Refusal := quietPhase s

/-- `HOLD.8` (R109). -/
def execHold8 (s : State) : Host.Outcome State Fault Refusal := quietPhase s

/-- `RESET_PULSE_START`: raise `RESET` (R110). -/
def execResetPulseStart (s : State) : Host.Outcome State Fault Refusal := writePhase .reset true s

/-- `RESET_PULSE_END`: lower `RESET` (R111). -/
def execResetPulseEnd (s : State) : Host.Outcome State Fault Refusal := writePhase .reset false s

/-- `LOAD_RELEASE`: lower `LOAD` (R112). -/
def execLoadRelease (s : State) : Host.Outcome State Fault Refusal := writePhase .load false s

/-- `SHIFT_CLOCK`: raise `CLOCK` (R113). -/
def execShiftClock (s : State) : Host.Outcome State Fault Refusal := writePhase .clock true s

/-- `SHIFT_SAMPLE`: `Sample()` at the cursors (R114). -/
def execShiftSample (s : State) : Host.Outcome State Fault Refusal := samplePhase s

/-- The meaning of each phase micro-operation. -/
def phaseMeanings : PhaseTable (State → Host.Outcome State Fault Refusal) where
  idle0 := execIdle0
  idle1 := execIdle1
  idle2 := execIdle2
  loadStrobe := execLoadStrobe
  firstClock := execFirstClock
  firstSample := execFirstSample
  hold6 := execHold6
  hold7 := execHold7
  hold8 := execHold8
  resetPulseStart := execResetPulseStart
  resetPulseEnd := execResetPulseEnd
  loadRelease := execLoadRelease
  shiftClock := execShiftClock
  shiftSample := execShiftSample

/-- `PhaseStep()`: perform the micro-operation that `PHASE`, as it stands at the start of the step, selects (R100). -/
def phaseStep (s : State) : Host.Outcome State Fault Refusal :=
  phaseMeanings.select s.phase s

end Sys2Proof.Machine
end

