-- ==== Sys2Proof/Machine/Scheduler.lean ====
section
/-! DEFINITION. The tick scheduler (`spec/41_tick_scheduler.md`): `STEP`. -/

namespace Sys2Proof.Machine

/-- `STEP now` (R90): outside the contract, before `INIT` (R90) or with time running backwards (R16, R97; log entry 9), it
is refused; not due, nothing of the hardware changes (R92); due, `LAST <- now` and exactly one phase step (R93, R94). -/
def execStep (now : Time) (s : State) : Host.Outcome State Fault Refusal :=
  if s.inited = false then .refused .stepBeforeInit
  else if timeMonotonic s.prevNow now = false then .refused .timeNotMonotonic
  else if due s now then phaseStep (recordTime now (noteTime now s))
  else .next (noteTime now s)

end Sys2Proof.Machine
end

