-- ==== Sys2Proof/Machine/Dispatch.lean ====
section
/-! DEFINITION. The dispatch: one arm per row of the opcode table, each one direct call of its meaning. -/

namespace Sys2Proof.Machine

def exec (i : Instr) (s : State) : Host.Outcome State Fault Refusal :=
  match i with
  | .hnop arg => Sys2Proof.Machine.execHnop arg s
  | .init arg => Sys2Proof.Machine.execInit arg s
  | .step now => Sys2Proof.Machine.execStep now s
  | .read vpin => Sys2Proof.Machine.execRead vpin s
  | .idle0 => Sys2Proof.Machine.execIdle0 s
  | .idle1 => Sys2Proof.Machine.execIdle1 s
  | .idle2 => Sys2Proof.Machine.execIdle2 s
  | .loadStrobe => Sys2Proof.Machine.execLoadStrobe s
  | .firstClock => Sys2Proof.Machine.execFirstClock s
  | .firstSample => Sys2Proof.Machine.execFirstSample s
  | .hold6 => Sys2Proof.Machine.execHold6 s
  | .hold7 => Sys2Proof.Machine.execHold7 s
  | .hold8 => Sys2Proof.Machine.execHold8 s
  | .resetPulseStart => Sys2Proof.Machine.execResetPulseStart s
  | .resetPulseEnd => Sys2Proof.Machine.execResetPulseEnd s
  | .loadRelease => Sys2Proof.Machine.execLoadRelease s
  | .shiftClock => Sys2Proof.Machine.execShiftClock s
  | .shiftSample => Sys2Proof.Machine.execShiftSample s

end Sys2Proof.Machine
end

