-- ==== Sys2Proof/Machine/Step.lean ====
section
/-! DEFINITION. One step of the modelled system: the next host operation, whole and atomic (`spec/60_exceptions.md` rules
R154, R156), or nothing while the host issues none (R165). -/

namespace Sys2Proof.Machine

/-- The next host operation is taken and performed. While the host issues none, the hardware "simply holds its state and
its output levels indefinitely" (R165). -/
def step (s : State) : Host.Outcome State Fault Refusal :=
  match fetch s with
  | none => .next s
  | some (i, s') => exec i s'

/-- `s` with the table word `w` of `nbits` bits placed where the next step runs it: a host command word (format `H`) at
the head of the host's queue; a phase value (format `P`) in `PHASE`, with a due `STEP` at the head (log entry 7). -/
def State.withFetchWord (s : State) (nbits w : Nat) : State :=
  if nbits = 32 then placePhase w s else placeCommand (BitVec.ofNat 34 w) s

end Sys2Proof.Machine
end

