-- ==== Sys2Proof/Machine/Pseudo.lean ====
section
/-! DEFINITION. The host programs of `spec/30_encoding.md` rule R80, as plain data (log entry 29), and the pseudo-operations of
its rule R81, as the program lines they expand to. -/

namespace Sys2Proof.Machine

/-- One line of a host program: an operation and, for a `READ`, the result written after `->` (R80). The type also holds
lines that R80 has not: a phase micro-operation or a `READ` outside the operand field (log entry 25), and an expected
result on an operation that is no `READ` (log entry 27). -/
structure HostLine where
  op : Instr
  expect : Option Rd
  deriving DecidableEq, Repr

/-- The command word a line is issued as: the low 34 bits of its operation's code (R70, R80; log entry 25). -/
def HostLine.word (l : HostLine) : HostWord :=
  BitVec.ofNat 34 (encode l.op).value

/-- `TICK n` from state `s`: `n` `STEP`s, each at the earliest time it is due (R81). -/
def tickLines (s : State) (n : Nat) : List HostLine :=
  (List.range n).map fun k => { op := .step (s.last + BitVec.ofNat 32 ((k + 1) * s.cfg.interval)), expect := none }

/-- `SCAN`: `TICK TOTAL_PHASES` (R81). -/
def scanLines (s : State) : List HostLine :=
  tickLines s s.cfg.phases

/-- `READALL -> b0 b1 ...`: a `READ` of every served pin, in increasing order, each with its expected result (R81). DESIGN
CHOICE (log entry 28): of a list that has not one result per served pin, a missing result is none expected and the results
past the last pin are dropped. -/
def readAllLines (c : Config) (expected : List Rd) : List HostLine :=
  (List.range c.pinCount).map fun i : Nat => { op := .read (c.firstVpin + i : Nat), expect := expected[i]? }

/-- A host program: `.config`, `.bufinit`, `.data` and the operations (R80). -/
structure HostProgram where
  config : Config
  bufInit : List Byte
  data : List Level
  lines : List HostLine
  deriving DecidableEq, Repr

/-- The state a host program starts from: hardware reset with its configuration and buffer, its answers queued on `DATA`,
its operations queued as command words (R80). DESIGN CHOICE (log entry 25): of a line that is none of R80's operations the
low 34 bits of its code are queued, so that a phase micro-operation loads as an `HNOP` word and a `READ` outside `0 ..
2^32 - 1` wraps. DESIGN CHOICE (log entry 26): a `.bufinit` list shorter than `N` bytes is filled up with 0, and of a longer
one the bytes from the `N`-th on are dropped. -/
def loadProgram (p : HostProgram) (outInit : OutLine → Level) : Host.Outcome State Fault Refusal :=
  match State.construct p.config (fun m => p.bufInit.getD m 0) defaultLastInit outInit with
  | .next s => .next { s with
      dataIn := p.data
      commands := p.lines.map HostLine.word }
  | .fault r => .fault r
  | .refused r => .refused r

/-- The results that the lines expect of their `READ`s are the results returned, in order (R80). DESIGN CHOICE (log entry
27): an expected result on a line that is no `READ`, which R80 does not write, is ignored. -/
def meetsExpectations (lines : List HostLine) (results : List Rd) : Bool :=
  match lines with
  | [] => results.isEmpty
  | l :: rest =>
    match l.op, results with
    | .read _, rd :: more => (l.expect.all fun e => decide (e = rd)) && meetsExpectations rest more
    | .read _, [] => false
    | _, _ => meetsExpectations rest results

end Sys2Proof.Machine
end

