-- ==== Sys2Proof/Safety.lean ====
section
/-! DEFINITION. What the claims speak of: the invariants of `spec/10_state.md` rules R35 and R36, in their parts; the
word for a step that completes; a run of phase steps. -/

namespace Sys2Proof.Machine

/-- The outcome is a next state: neither a fault nor a refusal. -/
def completes (o : Host.Outcome State Fault Refusal) : Prop :=
  ∃ t, o = .next t

/-- The one canonical form of the Module Buffer: exactly `N` modules (R21). Two buffers in this form with the same bits
are the same list. -/
def bufferWf (c : Config) (buf : List Byte) : Bool :=
  decide (buf.length = c.modules)

/-- The sampling events done in the scan in progress when `PHASE = p` (R36 (b)). -/
def scheduledPosition (p : Nat) : Nat :=
  if p ≤ 5 then 0 else if p ≤ 11 then 1 else 1 + (p - 12) / 2

/-- The counters are on schedule at an operation boundary: legal parameters, `N` modules, `PHASE <= 16 * N + 9` (R36 (a)),
and the cursors where the phase says (R36 (b)), which gives `MCOUNT <= N - 1` (R35). -/
def scheduled (s : State) : Bool :=
  s.cfg.legal && bufferWf s.cfg s.buf && decide (s.phase ≤ 16 * s.cfg.modules + 9)
    && decide (position s = scheduledPosition s.phase)

/-- The level of each output at the boundary with `PHASE = p` (R36 (c) to (e), R121). -/
def levelAt (l : OutLine) (p : Nat) : Level :=
  match l with
  | .load => decide (4 ≤ p ∧ p ≤ 11)
  | .clock => decide (p = 5 ∨ (13 ≤ p ∧ p % 2 = 1))
  | .reset => decide (p = 10)

/-- The three outputs are at the levels of the phase (R36 (c) to (e)). -/
def waveform (s : State) : Bool :=
  decide (s.outLoad = levelAt .load s.phase) && decide (s.outClock = levelAt .clock s.phase)
    && decide (s.outReset = levelAt .reset s.phase)

/-- The lines are configured as `INIT` leaves them (R36 (g), R37). -/
def linesConfigured (s : State) : Bool :=
  decide (s.dirData = .inputPullup) && decide (s.dirClock = .output) && decide (s.dirLoad = .output)
    && decide (s.dirReset = .output)

/-- The host words keep the contract of R173 and R180: exactly one `INIT` where none has been issued, no `STEP` before it,
and each `STEP`'s `now` less than `2^(TW-1)` after that of the `STEP` before it, `prev`. `READ` and `HNOP` may stand
anywhere. -/
def keepsContract (inited : Bool) (prev : Option Time) (words : List HostWord) : Bool :=
  match words with
  | [] => true
  | w :: rest =>
    if hostOp w = 0b01#2 then !inited && keepsContract true prev rest
    else if hostOp w = 0b10#2 then
      inited && timeMonotonic prev (hostArg w) && keepsContract inited (some (hostArg w)) rest
    else keepsContract inited prev rest

/-- The `STEP` before, if any, came less than `INTERVAL` after `LAST`: it was the due one that recorded `LAST`, or one that
was not due (R92, R93). -/
def lastFollowed (s : State) : Bool :=
  s.prevNow.all fun before => decide ((before - s.last).toNat < s.cfg.interval)

/-- The event is a read of `DATA`. -/
def isDataRead (e : Event) : Bool :=
  match e with
  | .cfg _ _ => false
  | .write _ _ => false
  | .read _ => true

/-- `n` phase steps in a row, stopping at the first that does not complete. -/
def runPhases (n : Nat) (s : State) : Host.Outcome State Fault Refusal :=
  match n with
  | 0 => .next s
  | n + 1 =>
    match phaseStep s with
    | .next t => runPhases n t
    | .fault r => .fault r
    | .refused r => .refused r

end Sys2Proof.Machine
end

