-- ==== Sys2Proof/Certificates/Slice0/Obligations.lean ====
section
/-! DEFINITION. The statements for the provers: what `spec/`'s numbered rules say the machine does. `N` is
`s.cfg.modules`, the time elapsed since `LAST` is written over the naturals, and a written level or a cleared field is
written out in the state rather than through the operation that makes it. -/

open Sys2Proof Sys2Proof.Machine

/-! ### Construction (hardware reset) -/

/-- R37, R170: hardware reset puts every state element at the value of the table, for every `BUF_INIT`, `LAST_INIT` and
every level of the outputs. The values are the spec's own decisions (D7, D8, D9, D16, D26;
log entry 12); that the trace starts empty and that no `STEP` precedes are the
model's choice (log entries 6, 24). -/
def Obligations.ConstructionGivesResetValues : Prop :=
  ∀ (c : Config) (bufInit : Nat → Byte) (lastInit : Time) (outInit : OutLine → Level), c.legal = true →
    ∃ t, State.construct c bufInit lastInit outInit = .next t ∧
      t.cfg = c ∧ t.buf.length = c.modules ∧
      (∀ m p, m < c.modules → bufBit t.buf m p = (bufInit m).getLsbD p) ∧
      t.phase = 0 ∧ t.mcount = 0 ∧ t.pcount = 0 ∧ t.last = lastInit ∧
      (∀ l, outLevel t l = outInit l) ∧ (∀ l, lineMode t l = .unconfigured) ∧
      t.inited = false ∧ t.trace = [] ∧ t.prevNow = none

/-- R174 and the closed list of `spec/93` section 2: each illegal parameter is refused under its own name. Which name wins
where two parameters are illegal is the model's choice (log entry 11); here each name is stated where the earlier
checks pass. -/
def Obligations.IllegalParametersAreRefusedByName : Prop :=
  ∀ (c : Config) (bufInit : Nat → Byte) (lastInit : Time) (outInit : OutLine → Level),
    (c.pinCount = 0 →
      State.construct c bufInit lastInit outInit = .refused .pinCountZero) ∧
    (0 < c.pinCount → 2 ^ 16 < c.firstVpin + c.pinCount →
      State.construct c bufInit lastInit outInit = .refused .pinRangeTooLarge) ∧
    (0 < c.pinCount → c.firstVpin + c.pinCount ≤ 2 ^ 16 →
      ¬[c.dataLine, c.clockLine, c.loadLine, c.resetLine].Nodup →
      State.construct c bufInit lastInit outInit = .refused .linesNotDistinct) ∧
    (0 < c.pinCount → c.firstVpin + c.pinCount ≤ 2 ^ 16 →
      [c.dataLine, c.clockLine, c.loadLine, c.resetLine].Nodup → (c.interval = 0 ∨ 2 ^ 32 ≤ c.interval) →
      State.construct c bufInit lastInit outInit = .refused .intervalOutOfRange)

/-- R7, R8: `N` is the least number of modules that holds `PIN_COUNT` bits, `N >= 1`, and a scan has `16 * N + 10`
phases. -/
def Obligations.ModuleCountIsTheCeiling : Prop :=
  ∀ c : Config, c.legal = true →
    1 ≤ c.modules ∧ (∀ n, c.pinCount ≤ 8 * n ↔ c.modules ≤ n) ∧ c.phases = 16 * c.modules + 10

/-! ### The lifecycle family -/

/-- R142: "No state element changes, no event is appended, nothing is returned", whatever `arg`. -/
def Obligations.HnopChangesNothing : Prop :=
  ∀ (arg : Arg) (s : State), exec (.hnop arg) s = .next s

/-- R141: `INIT` configures the four lines, then drives the three outputs low, sets `INITED`, and leaves everything else,
the phase, the cursors, the buffer and `LAST` among it, as it was, whatever `arg` and however often it is issued (that a
repeated `INIT` is applied and not refused is the model's choice, log entry 8). The
order of the events within either group is a decision of the spec on which no claim should depend (D14): stated up to a
permutation. -/
def Obligations.InitConfiguresTheLinesAndDrivesThemLow : Prop :=
  ∀ (arg : Arg) (s : State), ∃ cfgs writes : List Event,
    cfgs.Perm [.cfg .data .inputPullup, .cfg .clock .output, .cfg .load .output, .cfg .reset .output] ∧
    writes.Perm [.write .load false, .write .clock false, .write .reset false] ∧
    exec (.init arg) s = .next { s with
      dirData := .inputPullup, dirClock := .output, dirLoad := .output, dirReset := .output
      outClock := false, outLoad := false, outReset := false
      inited := true, trace := s.trace ++ cfgs ++ writes }

/-- R148: an `INIT` at a boundary with `PHASE = 0`, once the lines follow the schedule, changes no level and no mode.
That it is applied and not refused is the model's choice (log entry 8). -/
def Obligations.RepeatedInitAtPhaseZeroIsHarmless : Prop :=
  ∀ (arg : Arg) (s : State), s.phase = 0 → waveform s = true → linesConfigured s = true → s.inited = true →
    ∃ t, exec (.init arg) s = .next t ∧ t = { s with trace := t.trace }

/-! ### The pinbuffer mapper -/

/-- R131, R132: a `vpin` inside `[FIRST_VPIN, FIRST_VPIN + PIN_COUNT)` reads bit `pin mod 8` of module `pin div 8`, whose
index is in range, with no inversion; every other integer returns 0 whatever the buffer holds. -/
def Obligations.ReadReturnsTheServedBitElseZero : Prop :=
  ∀ (vpin : Int) (s : State),
    ((s.cfg.firstVpin : Int) ≤ vpin ∧ vpin < s.cfg.firstVpin + s.cfg.pinCount →
      (vpin - s.cfg.firstVpin).toNat / 8 < s.cfg.modules ∧
      exec (.read vpin) s = .next { s with
        results := s.results ++ [BitVec.ofBool
          (bufBit s.buf ((vpin - s.cfg.firstVpin).toNat / 8) ((vpin - s.cfg.firstVpin).toNat % 8))] }) ∧
    (vpin < s.cfg.firstVpin ∨ (s.cfg.firstVpin : Int) + s.cfg.pinCount ≤ vpin →
      exec (.read vpin) s = .next { s with results := s.results ++ [0#1] })

/-- R133: `READ` changes no state element of the hardware and appends no event, and its result is a function of `vpin`,
`FIRST_VPIN`, `PIN_COUNT` and `BUF` alone. -/
def Obligations.ReadIsPureAndSeesOnlyTheBuffer : Prop :=
  ∀ (vpin : Int) (s₁ s₂ : State), s₁.buf = s₂.buf → s₁.cfg.firstVpin = s₂.cfg.firstVpin →
    s₁.cfg.pinCount = s₂.cfg.pinCount →
    ∃ rd : Rd, exec (.read vpin) s₁ = .next { s₁ with results := s₁.results ++ [rd] } ∧
      exec (.read vpin) s₂ = .next { s₂ with results := s₂.results ++ [rd] }

/-- R134: for the 32-bit operand of the command word, the range check and the split taken modulo `2^32` agree with those
over the integers. -/
def Obligations.ModularRangeCheckAgrees : Prop :=
  ∀ (arg : Arg) (s : State), s.cfg.legal = true →
    exec (.read arg.toNat) s = .next { s with
      results := s.results ++ [BitVec.ofBool
        (decide ((arg - BitVec.ofNat 32 s.cfg.firstVpin).toNat < s.cfg.pinCount) &&
          bufBit s.buf ((arg - BitVec.ofNat 32 s.cfg.firstVpin).toNat / 8)
            ((arg - BitVec.ofNat 32 s.cfg.firstVpin).toNat % 8))] }

/-- R135: the bits at bit addresses `PIN_COUNT` and above are never returned: whatever is written there, every `READ`
returns the same. -/
def Obligations.UnexposedBitsAreNeverReturned : Prop :=
  ∀ (vpin : Int) (s : State) (a : Nat) (b : Level), s.cfg.pinCount ≤ a →
    ∃ rd : Rd, exec (.read vpin) s = .next { s with results := s.results ++ [rd] } ∧
      exec (.read vpin) { s with buf := memWrite s.buf a b } =
        .next { s with buf := memWrite s.buf a b, results := s.results ++ [rd] }

/-! ### The tick scheduler -/

/-- R90: a `STEP` while `INITED = 0` is refused. -/
def Obligations.StepBeforeInitIsRefused : Prop :=
  ∀ (now : Time) (s : State), s.inited = false → exec (.step now) s = .refused .stepBeforeInit

/-- R16, R97, and the closed list of `spec/93` section 2: after `INIT` a `STEP` is refused with this reason exactly when its
`now` runs backwards from that of the `STEP` before it, `(now - previous now) mod 2^TW >= 2^(TW-1)`. That the model takes
the refusal of the two treatments R97 offers, and the time before of the list, is its choice (log entry 9). -/
def Obligations.TimeRunningBackwardsIsRefused : Prop :=
  ∀ (now : Time) (s : State), s.inited = true →
    (exec (.step now) s = .refused .timeNotMonotonic ↔
      ∃ before, s.prevNow = some before ∧ 2 ^ 31 ≤ (now.toNat + (2 ^ 32 - before.toNat)) % 2 ^ 32)

/-- R92: a `STEP` with `(now - LAST) mod 2^TW < INTERVAL`, whose time does not run backwards, changes no state element and
appends no event. The model notes its time, which is no state of the hardware (log entry 24). -/
def Obligations.StepThatIsNotDueChangesNothing : Prop :=
  ∀ (now : Time) (s : State), s.inited = true → timeMonotonic s.prevNow now = true →
    (now.toNat + (2 ^ 32 - s.last.toNat)) % 2 ^ 32 < s.cfg.interval →
    exec (.step now) s = .next { s with prevNow := some now }

/-- R93, R100: a due `STEP`, whose time does not run backwards, records `LAST <- now` and performs exactly one phase step,
the micro-operation that `PHASE` selects. The model notes its time (log entry 24). -/
def Obligations.DueStepRunsTheSelectedMicroOperation : Prop :=
  ∀ (now : Time) (s : State), s.inited = true → timeMonotonic s.prevNow now = true →
    s.cfg.interval ≤ (now.toNat + (2 ^ 32 - s.last.toNat)) % 2 ^ 32 →
    exec (.step now) s = exec (decodePhase s.phase) { s with last := now, prevNow := some now }

/-- R93, R100, R119: a due `STEP` on schedule, whose time does not run backwards, completes. It records `now`, advances
`PHASE` by one or, from the last phase of a scan, returns it to 0, and keeps the cursors on schedule. Each output changes
in the phases that write it and in the last (R104, R105, R110 to R115, R118), and stays in the others. A sampling phase
stores the level read at the cursors and takes the answer; any other keeps the buffer and the answers. The trace is
extended, by exactly one read in a sampling phase and by none elsewhere. All else is as it was, but that the model notes
the time (log entry 24). -/
def Obligations.DueStepCompletesOnSchedule : Prop :=
  ∀ (now : Time) (s : State), scheduled s = true → s.inited = true → timeMonotonic s.prevNow now = true →
    s.cfg.interval ≤ (now.toNat + (2 ^ 32 - s.last.toNat)) % 2 ^ 32 →
    ∃ (t : State) (b : Level) (events : List Event), exec (.step now) s = .next t ∧ t.last = now ∧
      t.phase = (if s.phase = 16 * s.cfg.modules + 9 then 0 else s.phase + 1) ∧
      position t = scheduledPosition t.phase ∧
      t.outLoad = (if s.phase = 3 then true
        else if s.phase = 11 ∨ s.phase = 16 * s.cfg.modules + 9 then false else s.outLoad) ∧
      t.outClock = (if s.phase = 4 ∨ (12 ≤ s.phase ∧ s.phase % 2 = 0) then true
        else if s.phase = 5 ∨ (13 ≤ s.phase ∧ s.phase % 2 = 1) then false else s.outClock) ∧
      t.outReset = (if s.phase = 9 then true
        else if s.phase = 10 ∨ s.phase = 16 * s.cfg.modules + 9 then false else s.outReset) ∧
      (∀ c rest, s.dataIn = c :: rest → b = c) ∧
      t.trace = s.trace ++ events ∧
      (decodePhase s.phase = .firstSample ∨ decodePhase s.phase = .shiftSample →
        memRead t.buf (position s) = b ∧ t.dataIn = s.dataIn.tail ∧ events.filter isDataRead = [.read b]) ∧
      (decodePhase s.phase ≠ .firstSample → decodePhase s.phase ≠ .shiftSample →
        t.buf = s.buf ∧ t.dataIn = s.dataIn ∧ events.filter isDataRead = []) ∧
      t.buf.length = s.buf.length ∧ (∀ a, a ≠ position s → memRead t.buf a = memRead s.buf a) ∧
      t.cfg = s.cfg ∧ (∀ l, lineMode t l = lineMode s l) ∧ t.inited = true ∧
      t.commands = s.commands ∧ t.results = s.results ∧ t.prevNow = some now

/-- R91, R96: over a clock that never wraps, with less than `2^TW` units since `LAST` was recorded and, as R180 asks, less
than `2^(TW-1)` since the `STEP` before, if there was one, the gate sees the true elapsed time, also when the 32-bit
operand has wrapped. -/
def Obligations.GateSeesTheTrueElapsedTime : Prop :=
  ∀ (s : State) (then_ now : Nat), s.inited = true → s.last = BitVec.ofNat 32 then_ → then_ ≤ now →
    now - then_ < 2 ^ 32 →
    (s.prevNow = none ∨
      ∃ before, s.prevNow = some (BitVec.ofNat 32 before) ∧ before ≤ now ∧ now - before < 2 ^ 31) →
    exec (.step (BitVec.ofNat 32 now)) s =
      if now - then_ < s.cfg.interval then .next { s with prevNow := some (BitVec.ofNat 32 now) }
      else exec (decodePhase s.phase)
        { s with last := BitVec.ofNat 32 now, prevNow := some (BitVec.ofNat 32 now) }

/-- R81, R93: `TICK`, a `STEP` at `(LAST + INTERVAL) mod 2^TW`, is always due and within the contract, for an `INTERVAL`
that R180 lets two `STEP`s be apart, and the `STEP` before less than `INTERVAL` after `LAST`, as every step leaves it
(`EveryStepKeepsTheTimeBefore`). -/
def Obligations.TickIsAlwaysDue : Prop :=
  ∀ s : State, s.cfg.legal = true → s.inited = true → s.cfg.interval < 2 ^ 31 → lastFollowed s = true →
    exec (.step (tickTime s)) s =
      exec (decodePhase s.phase) { s with last := tickTime s, prevNow := some (tickTime s) }

/-- R92, R93: hardware reset leaves no `STEP` before, and every step keeps the `STEP` before less than `INTERVAL` after
`LAST`: it was the due one that recorded `LAST`, or one that was not due. -/
def Obligations.EveryStepKeepsTheTimeBefore : Prop :=
  (∀ (c : Config) (bufInit : Nat → Byte) (lastInit : Time) (outInit : OutLine → Level), c.legal = true →
    ∃ t, State.construct c bufInit lastInit outInit = .next t ∧ lastFollowed t = true) ∧
  ∀ s t : State, s.cfg.legal = true → lastFollowed s = true → step s = .next t → lastFollowed t = true

/-! ### The phase sequencer -/

/-- R75: "values 0 to 11 select by equality; every other value selects by parity". Of the table's rows the exact ones have
a full mask and the two `SHIFT` rows the mask `0x00000001` and the condition `p >= 12`, and each 32-bit phase value is of
the one row that the decode selects. -/
def Obligations.PhaseDecodeIsTotal : Prop :=
  decodePhase 0 = .idle0 ∧ decodePhase 1 = .idle1 ∧ decodePhase 2 = .idle2 ∧ decodePhase 3 = .loadStrobe ∧
    decodePhase 4 = .firstClock ∧ decodePhase 5 = .firstSample ∧ decodePhase 6 = .hold6 ∧ decodePhase 7 = .hold7 ∧
    decodePhase 8 = .hold8 ∧ decodePhase 9 = .resetPulseStart ∧ decodePhase 10 = .resetPulseEnd ∧
    decodePhase 11 = .loadRelease ∧
    (∀ p, 12 ≤ p → p % 2 = 0 → decodePhase p = .shiftClock) ∧
    (∀ p, 12 ≤ p → p % 2 = 1 → decodePhase p = .shiftSample) ∧
    (∀ p, p ≤ 11 → (opcodeRow (decodePhase p)).mask = 0xFFFFFFFF) ∧
    (∀ i ∈ [Instr.shiftClock, Instr.shiftSample], (opcodeRow i).mask = 0x00000001 ∧ (opcodeRow i).least = 12) ∧
    (∀ (p : Nat) (i : Instr), p < 2 ^ 32 →
      ((opcodeRow i).admits { width := 32, value := p } = true ↔ decodePhase p = i))

/-- R101 to R103, R107 to R109: `IDLE` and `HOLD` advance `PHASE` and do nothing else. That the lines are not written
again (D12) and that phases 6 to 8 do nothing (D10) are decisions of the spec (log entry 17). -/
def Obligations.IdleAndHoldOnlyAdvanceThePhase : Prop :=
  ∀ s : State, s.mcount ≠ s.cfg.modules →
    ∀ i ∈ [Instr.idle0, Instr.idle1, Instr.idle2, Instr.hold6, Instr.hold7, Instr.hold8],
      exec i s = .next { s with phase := s.phase + 1 }

/-- R104, R112: `LOAD_STROBE`, selected by phase 3, raises `LOAD`, `LOAD_RELEASE`, selected by phase 11, lowers it; each
appends its event, advances `PHASE` and leaves all else. -/
def Obligations.LoadPhasesWriteLoad : Prop :=
  decodePhase 3 = .loadStrobe ∧ decodePhase 11 = .loadRelease ∧ ∀ s : State, s.mcount ≠ s.cfg.modules →
    exec .loadStrobe s =
      .next { s with outLoad := true, trace := s.trace ++ [.write .load true], phase := s.phase + 1 } ∧
    exec .loadRelease s =
      .next { s with outLoad := false, trace := s.trace ++ [.write .load false], phase := s.phase + 1 }

/-- R105, R113: `FIRST_CLOCK` and `SHIFT_CLOCK` raise `CLOCK`, append the event, advance `PHASE` and leave all else. -/
def Obligations.ClockPhasesRaiseClock : Prop :=
  ∀ s : State, s.mcount ≠ s.cfg.modules →
    ∀ i ∈ [Instr.firstClock, Instr.shiftClock],
      exec i s = .next { s with outClock := true, trace := s.trace ++ [.write .clock true], phase := s.phase + 1 }

/-- R110, R111: `RESET_PULSE_START` raises `RESET`, `RESET_PULSE_END` lowers it; each appends its event, advances `PHASE`
and leaves all else. -/
def Obligations.ResetPulsePhasesWriteReset : Prop :=
  ∀ s : State, s.mcount ≠ s.cfg.modules →
    exec .resetPulseStart s =
      .next { s with outReset := true, trace := s.trace ++ [.write .reset true], phase := s.phase + 1 } ∧
    exec .resetPulseEnd s =
      .next { s with outReset := false, trace := s.trace ++ [.write .reset false], phase := s.phase + 1 }

/-- R106, R114, R115: a sampling event lowers `CLOCK`, then reads `DATA`, stores the level read at the cursors and advances
the cursors, and leaves all else; a sampling phase that does not end the scan is that and the advance of the phase. The
level is the next queued answer; with none queued it is a free value, on which nothing is said. -/
def Obligations.SamplingPhaseStoresTheLevelRead : Prop :=
  ∀ s : State, s.buf.length = s.cfg.modules → s.mcount < s.cfg.modules → ∃ (b : Level) (buf' : List Byte) (t : State),
    (∀ c rest, s.dataIn = c :: rest → b = c) ∧
    buf'.length = s.cfg.modules ∧
    (∀ m p, bufBit buf' m p = if m = s.mcount ∧ p = s.pcount.val then b else bufBit s.buf m p) ∧
    t = { s with
      buf := buf', outClock := false, dataIn := s.dataIn.tail
      trace := s.trace ++ [.write .clock false, .read b]
      mcount := if s.pcount = 7 then s.mcount + 1 else s.mcount
      pcount := if s.pcount = 7 then 0 else s.pcount + 1 } ∧
    sample s = t ∧
    (¬(s.mcount + 1 = s.cfg.modules ∧ s.pcount = 7) →
      ∀ i ∈ [Instr.firstSample, Instr.shiftSample], exec i s = .next { t with phase := s.phase + 1 })

/-- R114's corner case, R118: the sampling phase whose cursor advance reaches `N` stores its bit first and then returns
`PHASE` and the cursors to 0 and forces the three outputs low; `LAST` and the other bits stay. The order of the three
forced writes is a decision of the spec (D13): stated up to a permutation. -/
def Obligations.LastSamplingPhaseEndsTheScan : Prop :=
  ∀ s : State, s.buf.length = s.cfg.modules → s.mcount + 1 = s.cfg.modules → s.pcount = 7 →
    ∀ i ∈ [Instr.firstSample, Instr.shiftSample], ∃ (b : Level) (buf' : List Byte) (writes : List Event),
      (∀ c rest, s.dataIn = c :: rest → b = c) ∧
      buf'.length = s.cfg.modules ∧
      (∀ m p, bufBit buf' m p = if m = s.mcount ∧ p = 7 then b else bufBit s.buf m p) ∧
      writes.Perm [.write .load false, .write .clock false, .write .reset false] ∧
      exec i s = .next { s with
        buf := buf', outClock := false, outLoad := false, outReset := false, dataIn := s.dataIn.tail
        trace := s.trace ++ [.write .clock false, .read b] ++ writes
        mcount := 0, pcount := 0, phase := 0 }

/-- R118: the end-of-scan test is made in every phase step. With `MCOUNT = N` a phase that does not sample performs its
own line write and then the reset; the six without a line write perform the reset alone. -/
def Obligations.EndOfScanResetIsUnconditional : Prop :=
  ∀ s : State, s.mcount = s.cfg.modules → ∃ writes : List Event,
    writes.Perm [.write .load false, .write .clock false, .write .reset false] ∧
    (∀ i ∈ [Instr.idle0, Instr.idle1, Instr.idle2, Instr.hold6, Instr.hold7, Instr.hold8],
      exec i s = .next { s with
        phase := 0, mcount := 0, pcount := 0, outClock := false, outLoad := false, outReset := false
        trace := s.trace ++ writes }) ∧
    (∀ iw ∈ [(Instr.loadStrobe, Event.write .load true), (Instr.firstClock, Event.write .clock true),
        (Instr.resetPulseStart, Event.write .reset true), (Instr.resetPulseEnd, Event.write .reset false),
        (Instr.loadRelease, Event.write .load false), (Instr.shiftClock, Event.write .clock true)],
      exec iw.1 s = .next { s with
        phase := 0, mcount := 0, pcount := 0, outClock := false, outLoad := false, outReset := false
        trace := s.trace ++ [iw.2] ++ writes })

/-- R123: a sampling event with `MCOUNT >= N` has no bit to write and is refused by name. -/
def Obligations.SamplingOutOfRangeIsRefused : Prop :=
  ∀ s : State, s.cfg.modules ≤ s.mcount →
    ∀ i ∈ [Instr.firstSample, Instr.shiftSample], exec i s = .refused .cursorOutOfRange

/-- R117: the cursor advance is `s <- s + 1` for `s = 8 * MCOUNT + PCOUNT`; it writes nothing else; `MCOUNT` reaches `N`
only from `(N - 1, 7)`, and the end-of-scan check of the same phase step then turns the cursors into `(0, 0)`. -/
def Obligations.CursorsAdvanceLexicographically : Prop :=
  ∀ s : State,
    (s.pcount = 7 → advanceCursors s = { s with pcount := 0, mcount := s.mcount + 1 }) ∧
    (s.pcount ≠ 7 → advanceCursors s = { s with pcount := s.pcount + 1 }) ∧
    8 * (advanceCursors s).mcount + (advanceCursors s).pcount.val = 8 * s.mcount + s.pcount.val + 1 ∧
    (s.mcount < s.cfg.modules → (advanceCursors s).mcount = s.cfg.modules →
      s.mcount + 1 = s.cfg.modules ∧ s.pcount = 7) ∧
    (s.mcount + 1 = s.cfg.modules → s.pcount = 7 →
      (finishPhase (advanceCursors s)).mcount = 0 ∧ (finishPhase (advanceCursors s)).pcount = 0)

/-- R116: the bit write stores the level at `BUF[MCOUNT][PCOUNT]`, the cursors before their advance, and changes no other
bit of that module, no other module and nothing else; the sampling event makes exactly this write with the level read. -/
def Obligations.BitWriteChangesOneBit : Prop :=
  ∀ (v : Level) (s : State), s.buf.length = s.cfg.modules → s.mcount < s.cfg.modules →
    ∃ buf', writeSample v s = { s with buf := buf' } ∧ buf'.length = s.cfg.modules ∧
      bufBit buf' s.mcount s.pcount.val = v ∧
      (∀ p, p ≠ s.pcount.val → bufBit buf' s.mcount p = bufBit s.buf s.mcount p) ∧
      (∀ m, m ≠ s.mcount → buf'.getD m 0 = s.buf.getD m 0) ∧
      (v = dataAnswer (gpioWrite .clock false s) → (sample s).buf = buf')

/-! ### Invariants and rules of the whole machine -/

/-- R35, R36 (a), (b): hardware reset with legal parameters is on schedule, for every `BUF_INIT`, `LAST_INIT` and every
level of the outputs; so is `State.reset`. The reset values are the spec's own decisions (D7; log entry 12). -/
def Obligations.HardwareResetIsOnSchedule : Prop :=
  (∀ (c : Config) (bufInit : Nat → Byte) (lastInit : Time) (outInit : OutLine → Level), c.legal = true →
    ∃ t, State.construct c bufInit lastInit outInit = .next t ∧ scheduled t = true) ∧
  scheduled State.reset = true

/-- R35, R36 (a), (b): every step keeps the counters on schedule, `PHASE <= 16 * N + 9` and `MCOUNT <= N - 1` among
it, whatever the host issues. -/
def Obligations.EveryStepKeepsTheSchedule : Prop :=
  ∀ s t : State, scheduled s = true → step s = .next t → scheduled t = true ∧ t.mcount < t.cfg.modules

/-- R36 (c) to (e), R121, R148: after `INIT` every step keeps the three outputs at the levels of the phase, unless it is an
`INIT` in the middle of a scan. That such an `INIT` is applied and not refused is the model's choice (log entry 8). -/
def Obligations.EveryStepKeepsTheWaveform : Prop :=
  ∀ s t : State, scheduled s = true → s.inited = true → waveform s = true →
    (∀ arg s', fetch s = some (.init arg, s') → s.phase = 0) → step s = .next t →
    t.inited = true ∧ waveform t = true

/-- R141, R36: `INIT` at `PHASE = 0` puts the lines on the waveform, configured, with `INITED` set. That it is applied also
where `INITED` is set already, and not refused, is the model's choice (log entry 8). -/
def Obligations.InitStartsTheWaveform : Prop :=
  ∀ (arg : Arg) (s : State), s.phase = 0 →
    ∃ t, exec (.init arg) s = .next t ∧ waveform t = true ∧ linesConfigured t = true ∧ t.inited = true

/-- R36 (g), R32: once `INIT` has configured the lines, every step leaves them so. -/
def Obligations.LinesStayConfigured : Prop :=
  ∀ s t : State, linesConfigured s = true → step s = .next t → linesConfigured t = true

/-- R150, R156: on schedule and after `INIT` every step completes, whatever the host issues, but for a `STEP` whose time
runs backwards, and whatever the environment answers. That a repeated `INIT` completes is the model's choice (log
entry 8). -/
def Obligations.EveryStepAfterInitCompletes : Prop :=
  ∀ s : State, scheduled s = true → s.inited = true →
    (∀ now s', fetch s = some (.step now, s') → timeMonotonic s.prevNow now = true) → completes (step s)

/-- R173, R150: while the words the host will issue keep its contract (one `INIT`, before the first `STEP`; monotonic
`now`), a step on schedule completes, stays on schedule, and leaves words that keep the contract: after a `STEP` with its
`now` as the time before, after any other step with the time before unchanged. No refusal is ever reached. -/
def Obligations.ContractRunsAreNeverRefused : Prop :=
  ∀ s : State, scheduled s = true → keepsContract s.inited s.prevNow s.commands = true →
    ∃ t : State, step s = .next t ∧ scheduled t = true ∧ keepsContract t.inited t.prevNow t.commands = true ∧
      (∀ now s', fetch s = some (.step now, s') → t.prevNow = some now) ∧
      ((∀ now s', fetch s ≠ some (.step now, s')) → t.prevNow = s.prevNow)

/-- R121: an output level changes in a due `STEP` or in `INIT` and in no other operation. -/
def Obligations.OutputsChangeOnlyInTicksAndInit : Prop :=
  ∀ s t : State, step s = .next t → (∃ l, outLevel t l ≠ outLevel s l) →
    (∃ arg s', fetch s = some (.init arg, s')) ∨ (∃ now s', fetch s = some (.step now, s') ∧ due s now = true)

/-- R22, R57: a buffer bit changes only in a due `STEP` of a sampling phase, and only the bit at the cursors. -/
def Obligations.BufferChangesOnlyBySampling : Prop :=
  ∀ s t : State, step s = .next t → ∀ a, memRead t.buf a ≠ memRead s.buf a →
    a = position s ∧ (decodePhase s.phase = .firstSample ∨ decodePhase s.phase = .shiftSample) ∧
      ∃ now s', fetch s = some (.step now, s') ∧ due s now = true

/-- R28: no step changes a configuration constant or the number of modules. -/
def Obligations.ConfigurationNeverChanges : Prop :=
  ∀ s t : State, step s = .next t → t.cfg = s.cfg ∧ t.buf.length = s.buf.length

/-- R27: `LAST` changes only in a due `STEP`, and then to its `now`. -/
def Obligations.LastIsWrittenOnlyByADueStep : Prop :=
  ∀ s t : State, step s = .next t → t.last ≠ s.last →
    ∃ now s', fetch s = some (.step now, s') ∧ due s now = true ∧ t.last = now

/-- R119, R24: on schedule a due `STEP` increments `PHASE` by one or, in the last phase of a scan, returns it to 0, so that
`16 * N + 10` is never seen; every other step leaves it. -/
def Obligations.PhaseAdvancesByOneOrReturnsToZero : Prop :=
  ∀ s t : State, scheduled s = true → step s = .next t →
    ((∃ now s', fetch s = some (.step now, s') ∧ due s now = true) →
      t.phase = if s.phase = 16 * s.cfg.modules + 9 then 0 else s.phase + 1) ∧
    (¬(∃ now s', fetch s = some (.step now, s') ∧ due s now = true) → t.phase = s.phase) ∧
    t.phase ≠ 16 * s.cfg.modules + 10

/-- R122: a phase step appends no event, one write, one write then one read, or, at the end of a scan, one write, one read
and three writes: in the phases R122 lists, with at most one read. That phases 0 to 2 and 6 to 8 append
nothing is the spec's own decision (log entry 17). -/
def Obligations.EventsOfAPhaseStepAreBounded : Prop :=
  ∀ s : State, scheduled s = true → ∃ (t : State) (events : List Event),
    phaseStep s = .next t ∧ t.trace = s.trace ++ events ∧
    events.length =
      (if s.phase ≤ 2 ∨ (6 ≤ s.phase ∧ s.phase ≤ 8) then 0
        else if s.phase = 16 * s.cfg.modules + 9 then 5
        else if s.phase = 5 ∨ (13 ≤ s.phase ∧ s.phase % 2 = 1) then 2 else 1) ∧
    (events.filter isDataRead).length =
      (if s.phase = 5 ∨ (13 ≤ s.phase ∧ s.phase % 2 = 1) then 1 else 0)

/-- R82, R133: exactly a `READ` returns a result, one bit; no other step returns anything. -/
def Obligations.ResultsComeOnlyFromRead : Prop :=
  ∀ s t : State, step s = .next t →
    (∃ (vpin : Int) (s' : State) (rd : Rd), fetch s = some (.read vpin, s') ∧ t.results = s.results ++ [rd]) ∨
      ((∀ (vpin : Int) (s' : State), fetch s ≠ some (.read vpin, s')) ∧ t.results = s.results)

/-- R120, R52, R118, and the document's bit-order property (S4): one scan from `PHASE = 0` on schedule takes
`TOTAL_PHASES` phase steps, stores the `k`-th level read at bit address `k`, so that pin `FIRST_VPIN + k` reads it, and
ends where it began, with the three outputs low. -/
def Obligations.OneScanStoresTheLevelsInOrder : Prop :=
  ∀ (s : State) (fed rest : List Level), scheduled s = true → s.phase = 0 →
    fed.length = 8 * s.cfg.modules → s.dataIn = fed ++ rest →
    ∃ t, runPhases s.cfg.phases s = .next t ∧ scheduled t = true ∧ t.phase = 0 ∧ position t = 0 ∧
      (∀ l, outLevel t l = false) ∧ t.dataIn = rest ∧ t.cfg = s.cfg ∧ t.last = s.last ∧
      (∀ k, k < fed.length → some (memRead t.buf k) = fed[k]?) ∧
      (∀ k : Nat, k < s.cfg.pinCount → some (readPin t (s.cfg.firstVpin + k)) = fed[k]?)

/-! ### Encoding, and the step -/

/-- R70 to R75: decoding the encoder's word of a well-formed instruction gives the instruction, every operand at every
value. The encoder's words for the `SHIFT` phases are the model's choice (log entry 22). -/
def Obligations.DecodeOfEncodeGivesTheInstruction : Prop :=
  ∀ i : Instr, i.wellFormed = true →
    decodeWord (encode i).width (encode i).value = .ok i ∧
      decodeTableWord (encode i).width (encode i).value = some i

/-- R70, R71: every 34-bit command word decodes to a well-formed host operation, and encoding that gives the word back: no
bit of a command word is dropped. -/
def Obligations.EncodeOfDecodedCommandWordGivesTheWord : Prop :=
  ∀ w : HostWord, (decodeHost w).wellFormed = true ∧ encode (decodeHost w) = { width := 34, value := w.toNat }

/-- R70, R71, R74: words written out from the spec's tables and its worked examples. -/
def Obligations.WrittenWordsDecodeAsTheSpecSays : Prop :=
  decodeTableWord 34 0x000000000 = some (.hnop 0) ∧ decodeTableWord 34 0x112345678 = some (.init 0x12345678) ∧
    decodeTableWord 34 0x200000190 = some (.step 400) ∧ decodeTableWord 34 0x3FFFFFFFF = some (.read 4294967295) ∧
    decodeTableWord 32 5 = some .firstSample ∧ decodeTableWord 32 9 = some .resetPulseStart ∧
    decodeTableWord 32 40 = some .shiftClock ∧ decodeTableWord 32 41 = some .shiftSample

/-- R70, R154, R156: with the word of a well-formed host operation at the head of the host's queue, one step takes the word
and is exactly that operation; with no word nothing changes (R165, read so in log entry 18). The queue is the model's (log entry 5). -/
def Obligations.StepRunsTheDecodedHostOperation : Prop :=
  (∀ (i : Instr) (s : State) (rest : List HostWord), i.wellFormed = true → (encode i).width = 34 →
    s.commands = BitVec.ofNat 34 (encode i).value :: rest → step s = exec i { s with commands := rest }) ∧
  (∀ s : State, s.commands = [] → step s = .next s)
end

