-- ==== Sys2Proof/Laws/Decode.lean ====
section
/-! SUPPORT. The small lemmas of the two decodes and of the encoder. -/

namespace Sys2Proof

/-- From phase 12 on the decode is by parity (R75). -/
theorem select_of_ge {α : Type} (t : PhaseTable α) {p : Nat} (h : 12 ≤ p) :
    t.select p = if p % 2 = 0 then t.shiftClock else t.shiftSample := by
  obtain ⟨n, rfl⟩ := Nat.exists_eq_add_of_le' h
  rfl

@[simp] theorem hostOp_hostWord (op : BitVec 2) (arg : Arg) : hostOp (hostWord op arg) = op := by
  simp only [hostOp, hostWord]
  ext i hi
  simp only [BitVec.getElem_extractLsb', BitVec.getLsbD_append]
  rw [if_neg (by omega)]
  simp [← BitVec.getLsbD_eq_getElem]

@[simp] theorem hostArg_hostWord (op : BitVec 2) (arg : Arg) : hostArg (hostWord op arg) = arg := by
  simp only [hostArg, hostWord]
  ext i hi
  simp only [BitVec.getElem_extractLsb', BitVec.getLsbD_append]
  rw [if_pos (by omega)]
  simp [← BitVec.getLsbD_eq_getElem]

/-- The word of a format `H` code. -/
@[simp] theorem hostCode_value (op : BitVec 2) (arg : Arg) :
    BitVec.ofNat 34 (hostCode op arg).value = hostWord op arg :=
  BitVec.ofNat_toNat _ _

theorem hostCode_lt (op : BitVec 2) (arg : Arg) : (hostCode op arg).value < 2 ^ 34 :=
  (hostWord op arg).isLt

/-- The value of a host command word: `op * 2^32 + arg`. -/
theorem hostWord_toNat (op : BitVec 2) (arg : Arg) : (hostWord op arg).toNat = op.toNat * 2 ^ 32 + arg.toNat := by
  rw [hostWord, BitVec.toNat_append, ← Nat.shiftLeft_add_eq_or_of_lt arg.isLt, Nat.shiftLeft_eq]

end Sys2Proof
end

