-- ==== Sys2Proof/Laws/State.lean ====
section
/-! SUPPORT. One lemma per field of `State` and per update of `Machine/Ops.lean` and `Machine/Lifecycle.lean`, true by
`rfl` (by the field lemmas of its parts where an update is made of several): what the update makes of the field. No proof needs to unfold one of these updates. -/

namespace Sys2Proof.Machine

/-! ### `gpioCfg` -/

@[simp] theorem gpioCfg_cfg (l : Line) (m : Mode) (s : State) : (gpioCfg l m s).cfg = s.cfg := rfl
@[simp] theorem gpioCfg_buf (l : Line) (m : Mode) (s : State) : (gpioCfg l m s).buf = s.buf := rfl
@[simp] theorem gpioCfg_phase (l : Line) (m : Mode) (s : State) : (gpioCfg l m s).phase = s.phase := rfl
@[simp] theorem gpioCfg_mcount (l : Line) (m : Mode) (s : State) : (gpioCfg l m s).mcount = s.mcount := rfl
@[simp] theorem gpioCfg_pcount (l : Line) (m : Mode) (s : State) : (gpioCfg l m s).pcount = s.pcount := rfl
@[simp] theorem gpioCfg_last (l : Line) (m : Mode) (s : State) : (gpioCfg l m s).last = s.last := rfl
@[simp] theorem gpioCfg_outClock (l : Line) (m : Mode) (s : State) : (gpioCfg l m s).outClock = s.outClock := rfl
@[simp] theorem gpioCfg_outLoad (l : Line) (m : Mode) (s : State) : (gpioCfg l m s).outLoad = s.outLoad := rfl
@[simp] theorem gpioCfg_outReset (l : Line) (m : Mode) (s : State) : (gpioCfg l m s).outReset = s.outReset := rfl
@[simp] theorem gpioCfg_dirData (l : Line) (m : Mode) (s : State) :
    (gpioCfg l m s).dirData = if l = .data then m else s.dirData :=
  rfl
@[simp] theorem gpioCfg_dirClock (l : Line) (m : Mode) (s : State) :
    (gpioCfg l m s).dirClock = if l = .clock then m else s.dirClock :=
  rfl
@[simp] theorem gpioCfg_dirLoad (l : Line) (m : Mode) (s : State) :
    (gpioCfg l m s).dirLoad = if l = .load then m else s.dirLoad :=
  rfl
@[simp] theorem gpioCfg_dirReset (l : Line) (m : Mode) (s : State) :
    (gpioCfg l m s).dirReset = if l = .reset then m else s.dirReset :=
  rfl
@[simp] theorem gpioCfg_inited (l : Line) (m : Mode) (s : State) : (gpioCfg l m s).inited = s.inited := rfl
@[simp] theorem gpioCfg_commands (l : Line) (m : Mode) (s : State) : (gpioCfg l m s).commands = s.commands := rfl
@[simp] theorem gpioCfg_dataIn (l : Line) (m : Mode) (s : State) : (gpioCfg l m s).dataIn = s.dataIn := rfl
@[simp] theorem gpioCfg_trace (l : Line) (m : Mode) (s : State) : (gpioCfg l m s).trace = s.trace ++ [.cfg l m] := rfl
@[simp] theorem gpioCfg_results (l : Line) (m : Mode) (s : State) : (gpioCfg l m s).results = s.results := rfl
@[simp] theorem gpioCfg_prevNow (l : Line) (m : Mode) (s : State) : (gpioCfg l m s).prevNow = s.prevNow := rfl

/-! ### `gpioWrite` -/

@[simp] theorem gpioWrite_cfg (l : OutLine) (v : Level) (s : State) : (gpioWrite l v s).cfg = s.cfg := rfl
@[simp] theorem gpioWrite_buf (l : OutLine) (v : Level) (s : State) : (gpioWrite l v s).buf = s.buf := rfl
@[simp] theorem gpioWrite_phase (l : OutLine) (v : Level) (s : State) : (gpioWrite l v s).phase = s.phase := rfl
@[simp] theorem gpioWrite_mcount (l : OutLine) (v : Level) (s : State) : (gpioWrite l v s).mcount = s.mcount := rfl
@[simp] theorem gpioWrite_pcount (l : OutLine) (v : Level) (s : State) : (gpioWrite l v s).pcount = s.pcount := rfl
@[simp] theorem gpioWrite_last (l : OutLine) (v : Level) (s : State) : (gpioWrite l v s).last = s.last := rfl
@[simp] theorem gpioWrite_outClock (l : OutLine) (v : Level) (s : State) :
    (gpioWrite l v s).outClock = if l = .clock then v else s.outClock :=
  rfl
@[simp] theorem gpioWrite_outLoad (l : OutLine) (v : Level) (s : State) :
    (gpioWrite l v s).outLoad = if l = .load then v else s.outLoad :=
  rfl
@[simp] theorem gpioWrite_outReset (l : OutLine) (v : Level) (s : State) :
    (gpioWrite l v s).outReset = if l = .reset then v else s.outReset :=
  rfl
@[simp] theorem gpioWrite_dirData (l : OutLine) (v : Level) (s : State) : (gpioWrite l v s).dirData = s.dirData := rfl
@[simp] theorem gpioWrite_dirClock (l : OutLine) (v : Level) (s : State) :
    (gpioWrite l v s).dirClock = s.dirClock :=
  rfl
@[simp] theorem gpioWrite_dirLoad (l : OutLine) (v : Level) (s : State) : (gpioWrite l v s).dirLoad = s.dirLoad := rfl
@[simp] theorem gpioWrite_dirReset (l : OutLine) (v : Level) (s : State) :
    (gpioWrite l v s).dirReset = s.dirReset :=
  rfl
@[simp] theorem gpioWrite_inited (l : OutLine) (v : Level) (s : State) : (gpioWrite l v s).inited = s.inited := rfl
@[simp] theorem gpioWrite_commands (l : OutLine) (v : Level) (s : State) :
    (gpioWrite l v s).commands = s.commands :=
  rfl
@[simp] theorem gpioWrite_dataIn (l : OutLine) (v : Level) (s : State) : (gpioWrite l v s).dataIn = s.dataIn := rfl
@[simp] theorem gpioWrite_trace (l : OutLine) (v : Level) (s : State) :
    (gpioWrite l v s).trace = s.trace ++ [.write l v] :=
  rfl
@[simp] theorem gpioWrite_results (l : OutLine) (v : Level) (s : State) : (gpioWrite l v s).results = s.results := rfl
@[simp] theorem gpioWrite_prevNow (l : OutLine) (v : Level) (s : State) : (gpioWrite l v s).prevNow = s.prevNow := rfl

/-! ### `gpioRead` -/

@[simp] theorem gpioRead_cfg (s : State) : (gpioRead s).cfg = s.cfg := rfl
@[simp] theorem gpioRead_buf (s : State) : (gpioRead s).buf = s.buf := rfl
@[simp] theorem gpioRead_phase (s : State) : (gpioRead s).phase = s.phase := rfl
@[simp] theorem gpioRead_mcount (s : State) : (gpioRead s).mcount = s.mcount := rfl
@[simp] theorem gpioRead_pcount (s : State) : (gpioRead s).pcount = s.pcount := rfl
@[simp] theorem gpioRead_last (s : State) : (gpioRead s).last = s.last := rfl
@[simp] theorem gpioRead_outClock (s : State) : (gpioRead s).outClock = s.outClock := rfl
@[simp] theorem gpioRead_outLoad (s : State) : (gpioRead s).outLoad = s.outLoad := rfl
@[simp] theorem gpioRead_outReset (s : State) : (gpioRead s).outReset = s.outReset := rfl
@[simp] theorem gpioRead_dirData (s : State) : (gpioRead s).dirData = s.dirData := rfl
@[simp] theorem gpioRead_dirClock (s : State) : (gpioRead s).dirClock = s.dirClock := rfl
@[simp] theorem gpioRead_dirLoad (s : State) : (gpioRead s).dirLoad = s.dirLoad := rfl
@[simp] theorem gpioRead_dirReset (s : State) : (gpioRead s).dirReset = s.dirReset := rfl
@[simp] theorem gpioRead_inited (s : State) : (gpioRead s).inited = s.inited := rfl
@[simp] theorem gpioRead_commands (s : State) : (gpioRead s).commands = s.commands := rfl
@[simp] theorem gpioRead_dataIn (s : State) : (gpioRead s).dataIn = s.dataIn.tail := rfl
@[simp] theorem gpioRead_trace (s : State) : (gpioRead s).trace = s.trace ++ [.read (dataAnswer s)] := rfl
@[simp] theorem gpioRead_results (s : State) : (gpioRead s).results = s.results := rfl
@[simp] theorem gpioRead_prevNow (s : State) : (gpioRead s).prevNow = s.prevNow := rfl

/-! ### `writeSample` -/

@[simp] theorem writeSample_cfg (v : Level) (s : State) : (writeSample v s).cfg = s.cfg := rfl
@[simp] theorem writeSample_buf (v : Level) (s : State) : (writeSample v s).buf = memWrite s.buf (position s) v := rfl
@[simp] theorem writeSample_phase (v : Level) (s : State) : (writeSample v s).phase = s.phase := rfl
@[simp] theorem writeSample_mcount (v : Level) (s : State) : (writeSample v s).mcount = s.mcount := rfl
@[simp] theorem writeSample_pcount (v : Level) (s : State) : (writeSample v s).pcount = s.pcount := rfl
@[simp] theorem writeSample_last (v : Level) (s : State) : (writeSample v s).last = s.last := rfl
@[simp] theorem writeSample_outClock (v : Level) (s : State) : (writeSample v s).outClock = s.outClock := rfl
@[simp] theorem writeSample_outLoad (v : Level) (s : State) : (writeSample v s).outLoad = s.outLoad := rfl
@[simp] theorem writeSample_outReset (v : Level) (s : State) : (writeSample v s).outReset = s.outReset := rfl
@[simp] theorem writeSample_dirData (v : Level) (s : State) : (writeSample v s).dirData = s.dirData := rfl
@[simp] theorem writeSample_dirClock (v : Level) (s : State) : (writeSample v s).dirClock = s.dirClock := rfl
@[simp] theorem writeSample_dirLoad (v : Level) (s : State) : (writeSample v s).dirLoad = s.dirLoad := rfl
@[simp] theorem writeSample_dirReset (v : Level) (s : State) : (writeSample v s).dirReset = s.dirReset := rfl
@[simp] theorem writeSample_inited (v : Level) (s : State) : (writeSample v s).inited = s.inited := rfl
@[simp] theorem writeSample_commands (v : Level) (s : State) : (writeSample v s).commands = s.commands := rfl
@[simp] theorem writeSample_dataIn (v : Level) (s : State) : (writeSample v s).dataIn = s.dataIn := rfl
@[simp] theorem writeSample_trace (v : Level) (s : State) : (writeSample v s).trace = s.trace := rfl
@[simp] theorem writeSample_results (v : Level) (s : State) : (writeSample v s).results = s.results := rfl
@[simp] theorem writeSample_prevNow (v : Level) (s : State) : (writeSample v s).prevNow = s.prevNow := rfl

/-! ### `advanceCursors` -/

@[simp] theorem advanceCursors_cfg (s : State) : (advanceCursors s).cfg = s.cfg := rfl
@[simp] theorem advanceCursors_buf (s : State) : (advanceCursors s).buf = s.buf := rfl
@[simp] theorem advanceCursors_phase (s : State) : (advanceCursors s).phase = s.phase := rfl
@[simp] theorem advanceCursors_mcount (s : State) :
    (advanceCursors s).mcount = if s.pcount = 7 then s.mcount + 1 else s.mcount :=
  rfl
@[simp] theorem advanceCursors_pcount (s : State) :
    (advanceCursors s).pcount = if s.pcount = 7 then 0 else s.pcount + 1 :=
  rfl
@[simp] theorem advanceCursors_last (s : State) : (advanceCursors s).last = s.last := rfl
@[simp] theorem advanceCursors_outClock (s : State) : (advanceCursors s).outClock = s.outClock := rfl
@[simp] theorem advanceCursors_outLoad (s : State) : (advanceCursors s).outLoad = s.outLoad := rfl
@[simp] theorem advanceCursors_outReset (s : State) : (advanceCursors s).outReset = s.outReset := rfl
@[simp] theorem advanceCursors_dirData (s : State) : (advanceCursors s).dirData = s.dirData := rfl
@[simp] theorem advanceCursors_dirClock (s : State) : (advanceCursors s).dirClock = s.dirClock := rfl
@[simp] theorem advanceCursors_dirLoad (s : State) : (advanceCursors s).dirLoad = s.dirLoad := rfl
@[simp] theorem advanceCursors_dirReset (s : State) : (advanceCursors s).dirReset = s.dirReset := rfl
@[simp] theorem advanceCursors_inited (s : State) : (advanceCursors s).inited = s.inited := rfl
@[simp] theorem advanceCursors_commands (s : State) : (advanceCursors s).commands = s.commands := rfl
@[simp] theorem advanceCursors_dataIn (s : State) : (advanceCursors s).dataIn = s.dataIn := rfl
@[simp] theorem advanceCursors_trace (s : State) : (advanceCursors s).trace = s.trace := rfl
@[simp] theorem advanceCursors_results (s : State) : (advanceCursors s).results = s.results := rfl
@[simp] theorem advanceCursors_prevNow (s : State) : (advanceCursors s).prevNow = s.prevNow := rfl

/-! ### `incrementPhase` -/

@[simp] theorem incrementPhase_cfg (s : State) : (incrementPhase s).cfg = s.cfg := rfl
@[simp] theorem incrementPhase_buf (s : State) : (incrementPhase s).buf = s.buf := rfl
@[simp] theorem incrementPhase_phase (s : State) : (incrementPhase s).phase = s.phase + 1 := rfl
@[simp] theorem incrementPhase_mcount (s : State) : (incrementPhase s).mcount = s.mcount := rfl
@[simp] theorem incrementPhase_pcount (s : State) : (incrementPhase s).pcount = s.pcount := rfl
@[simp] theorem incrementPhase_last (s : State) : (incrementPhase s).last = s.last := rfl
@[simp] theorem incrementPhase_outClock (s : State) : (incrementPhase s).outClock = s.outClock := rfl
@[simp] theorem incrementPhase_outLoad (s : State) : (incrementPhase s).outLoad = s.outLoad := rfl
@[simp] theorem incrementPhase_outReset (s : State) : (incrementPhase s).outReset = s.outReset := rfl
@[simp] theorem incrementPhase_dirData (s : State) : (incrementPhase s).dirData = s.dirData := rfl
@[simp] theorem incrementPhase_dirClock (s : State) : (incrementPhase s).dirClock = s.dirClock := rfl
@[simp] theorem incrementPhase_dirLoad (s : State) : (incrementPhase s).dirLoad = s.dirLoad := rfl
@[simp] theorem incrementPhase_dirReset (s : State) : (incrementPhase s).dirReset = s.dirReset := rfl
@[simp] theorem incrementPhase_inited (s : State) : (incrementPhase s).inited = s.inited := rfl
@[simp] theorem incrementPhase_commands (s : State) : (incrementPhase s).commands = s.commands := rfl
@[simp] theorem incrementPhase_dataIn (s : State) : (incrementPhase s).dataIn = s.dataIn := rfl
@[simp] theorem incrementPhase_trace (s : State) : (incrementPhase s).trace = s.trace := rfl
@[simp] theorem incrementPhase_results (s : State) : (incrementPhase s).results = s.results := rfl
@[simp] theorem incrementPhase_prevNow (s : State) : (incrementPhase s).prevNow = s.prevNow := rfl

/-! ### `recordTime` -/

@[simp] theorem recordTime_cfg (now : Time) (s : State) : (recordTime now s).cfg = s.cfg := rfl
@[simp] theorem recordTime_buf (now : Time) (s : State) : (recordTime now s).buf = s.buf := rfl
@[simp] theorem recordTime_phase (now : Time) (s : State) : (recordTime now s).phase = s.phase := rfl
@[simp] theorem recordTime_mcount (now : Time) (s : State) : (recordTime now s).mcount = s.mcount := rfl
@[simp] theorem recordTime_pcount (now : Time) (s : State) : (recordTime now s).pcount = s.pcount := rfl
@[simp] theorem recordTime_last (now : Time) (s : State) : (recordTime now s).last = now := rfl
@[simp] theorem recordTime_outClock (now : Time) (s : State) : (recordTime now s).outClock = s.outClock := rfl
@[simp] theorem recordTime_outLoad (now : Time) (s : State) : (recordTime now s).outLoad = s.outLoad := rfl
@[simp] theorem recordTime_outReset (now : Time) (s : State) : (recordTime now s).outReset = s.outReset := rfl
@[simp] theorem recordTime_dirData (now : Time) (s : State) : (recordTime now s).dirData = s.dirData := rfl
@[simp] theorem recordTime_dirClock (now : Time) (s : State) : (recordTime now s).dirClock = s.dirClock := rfl
@[simp] theorem recordTime_dirLoad (now : Time) (s : State) : (recordTime now s).dirLoad = s.dirLoad := rfl
@[simp] theorem recordTime_dirReset (now : Time) (s : State) : (recordTime now s).dirReset = s.dirReset := rfl
@[simp] theorem recordTime_inited (now : Time) (s : State) : (recordTime now s).inited = s.inited := rfl
@[simp] theorem recordTime_commands (now : Time) (s : State) : (recordTime now s).commands = s.commands := rfl
@[simp] theorem recordTime_dataIn (now : Time) (s : State) : (recordTime now s).dataIn = s.dataIn := rfl
@[simp] theorem recordTime_trace (now : Time) (s : State) : (recordTime now s).trace = s.trace := rfl
@[simp] theorem recordTime_results (now : Time) (s : State) : (recordTime now s).results = s.results := rfl
@[simp] theorem recordTime_prevNow (now : Time) (s : State) : (recordTime now s).prevNow = s.prevNow := rfl

/-! ### `noteTime` -/

@[simp] theorem noteTime_cfg (now : Time) (s : State) : (noteTime now s).cfg = s.cfg := rfl
@[simp] theorem noteTime_buf (now : Time) (s : State) : (noteTime now s).buf = s.buf := rfl
@[simp] theorem noteTime_phase (now : Time) (s : State) : (noteTime now s).phase = s.phase := rfl
@[simp] theorem noteTime_mcount (now : Time) (s : State) : (noteTime now s).mcount = s.mcount := rfl
@[simp] theorem noteTime_pcount (now : Time) (s : State) : (noteTime now s).pcount = s.pcount := rfl
@[simp] theorem noteTime_last (now : Time) (s : State) : (noteTime now s).last = s.last := rfl
@[simp] theorem noteTime_outClock (now : Time) (s : State) : (noteTime now s).outClock = s.outClock := rfl
@[simp] theorem noteTime_outLoad (now : Time) (s : State) : (noteTime now s).outLoad = s.outLoad := rfl
@[simp] theorem noteTime_outReset (now : Time) (s : State) : (noteTime now s).outReset = s.outReset := rfl
@[simp] theorem noteTime_dirData (now : Time) (s : State) : (noteTime now s).dirData = s.dirData := rfl
@[simp] theorem noteTime_dirClock (now : Time) (s : State) : (noteTime now s).dirClock = s.dirClock := rfl
@[simp] theorem noteTime_dirLoad (now : Time) (s : State) : (noteTime now s).dirLoad = s.dirLoad := rfl
@[simp] theorem noteTime_dirReset (now : Time) (s : State) : (noteTime now s).dirReset = s.dirReset := rfl
@[simp] theorem noteTime_inited (now : Time) (s : State) : (noteTime now s).inited = s.inited := rfl
@[simp] theorem noteTime_commands (now : Time) (s : State) : (noteTime now s).commands = s.commands := rfl
@[simp] theorem noteTime_dataIn (now : Time) (s : State) : (noteTime now s).dataIn = s.dataIn := rfl
@[simp] theorem noteTime_trace (now : Time) (s : State) : (noteTime now s).trace = s.trace := rfl
@[simp] theorem noteTime_results (now : Time) (s : State) : (noteTime now s).results = s.results := rfl
@[simp] theorem noteTime_prevNow (now : Time) (s : State) : (noteTime now s).prevNow = some now := rfl

/-! ### `returnResult` -/

@[simp] theorem returnResult_cfg (rd : Rd) (s : State) : (returnResult rd s).cfg = s.cfg := rfl
@[simp] theorem returnResult_buf (rd : Rd) (s : State) : (returnResult rd s).buf = s.buf := rfl
@[simp] theorem returnResult_phase (rd : Rd) (s : State) : (returnResult rd s).phase = s.phase := rfl
@[simp] theorem returnResult_mcount (rd : Rd) (s : State) : (returnResult rd s).mcount = s.mcount := rfl
@[simp] theorem returnResult_pcount (rd : Rd) (s : State) : (returnResult rd s).pcount = s.pcount := rfl
@[simp] theorem returnResult_last (rd : Rd) (s : State) : (returnResult rd s).last = s.last := rfl
@[simp] theorem returnResult_outClock (rd : Rd) (s : State) : (returnResult rd s).outClock = s.outClock := rfl
@[simp] theorem returnResult_outLoad (rd : Rd) (s : State) : (returnResult rd s).outLoad = s.outLoad := rfl
@[simp] theorem returnResult_outReset (rd : Rd) (s : State) : (returnResult rd s).outReset = s.outReset := rfl
@[simp] theorem returnResult_dirData (rd : Rd) (s : State) : (returnResult rd s).dirData = s.dirData := rfl
@[simp] theorem returnResult_dirClock (rd : Rd) (s : State) : (returnResult rd s).dirClock = s.dirClock := rfl
@[simp] theorem returnResult_dirLoad (rd : Rd) (s : State) : (returnResult rd s).dirLoad = s.dirLoad := rfl
@[simp] theorem returnResult_dirReset (rd : Rd) (s : State) : (returnResult rd s).dirReset = s.dirReset := rfl
@[simp] theorem returnResult_inited (rd : Rd) (s : State) : (returnResult rd s).inited = s.inited := rfl
@[simp] theorem returnResult_commands (rd : Rd) (s : State) : (returnResult rd s).commands = s.commands := rfl
@[simp] theorem returnResult_dataIn (rd : Rd) (s : State) : (returnResult rd s).dataIn = s.dataIn := rfl
@[simp] theorem returnResult_trace (rd : Rd) (s : State) : (returnResult rd s).trace = s.trace := rfl
@[simp] theorem returnResult_results (rd : Rd) (s : State) : (returnResult rd s).results = s.results ++ [rd] := rfl
@[simp] theorem returnResult_prevNow (rd : Rd) (s : State) : (returnResult rd s).prevNow = s.prevNow := rfl

/-! ### `takeCommand` -/

@[simp] theorem takeCommand_cfg (s : State) : (takeCommand s).cfg = s.cfg := rfl
@[simp] theorem takeCommand_buf (s : State) : (takeCommand s).buf = s.buf := rfl
@[simp] theorem takeCommand_phase (s : State) : (takeCommand s).phase = s.phase := rfl
@[simp] theorem takeCommand_mcount (s : State) : (takeCommand s).mcount = s.mcount := rfl
@[simp] theorem takeCommand_pcount (s : State) : (takeCommand s).pcount = s.pcount := rfl
@[simp] theorem takeCommand_last (s : State) : (takeCommand s).last = s.last := rfl
@[simp] theorem takeCommand_outClock (s : State) : (takeCommand s).outClock = s.outClock := rfl
@[simp] theorem takeCommand_outLoad (s : State) : (takeCommand s).outLoad = s.outLoad := rfl
@[simp] theorem takeCommand_outReset (s : State) : (takeCommand s).outReset = s.outReset := rfl
@[simp] theorem takeCommand_dirData (s : State) : (takeCommand s).dirData = s.dirData := rfl
@[simp] theorem takeCommand_dirClock (s : State) : (takeCommand s).dirClock = s.dirClock := rfl
@[simp] theorem takeCommand_dirLoad (s : State) : (takeCommand s).dirLoad = s.dirLoad := rfl
@[simp] theorem takeCommand_dirReset (s : State) : (takeCommand s).dirReset = s.dirReset := rfl
@[simp] theorem takeCommand_inited (s : State) : (takeCommand s).inited = s.inited := rfl
@[simp] theorem takeCommand_commands (s : State) : (takeCommand s).commands = s.commands.tail := rfl
@[simp] theorem takeCommand_dataIn (s : State) : (takeCommand s).dataIn = s.dataIn := rfl
@[simp] theorem takeCommand_trace (s : State) : (takeCommand s).trace = s.trace := rfl
@[simp] theorem takeCommand_results (s : State) : (takeCommand s).results = s.results := rfl
@[simp] theorem takeCommand_prevNow (s : State) : (takeCommand s).prevNow = s.prevNow := rfl

/-! ### `endOfScanReset` -/

@[simp] theorem endOfScanReset_cfg (s : State) : (endOfScanReset s).cfg = s.cfg := rfl
@[simp] theorem endOfScanReset_buf (s : State) : (endOfScanReset s).buf = s.buf := rfl
@[simp] theorem endOfScanReset_phase (s : State) : (endOfScanReset s).phase = 0 := rfl
@[simp] theorem endOfScanReset_mcount (s : State) : (endOfScanReset s).mcount = 0 := rfl
@[simp] theorem endOfScanReset_pcount (s : State) : (endOfScanReset s).pcount = 0 := rfl
@[simp] theorem endOfScanReset_last (s : State) : (endOfScanReset s).last = s.last := rfl
@[simp] theorem endOfScanReset_outClock (s : State) : (endOfScanReset s).outClock = false := rfl
@[simp] theorem endOfScanReset_outLoad (s : State) : (endOfScanReset s).outLoad = false := rfl
@[simp] theorem endOfScanReset_outReset (s : State) : (endOfScanReset s).outReset = false := rfl
@[simp] theorem endOfScanReset_dirData (s : State) : (endOfScanReset s).dirData = s.dirData := rfl
@[simp] theorem endOfScanReset_dirClock (s : State) : (endOfScanReset s).dirClock = s.dirClock := rfl
@[simp] theorem endOfScanReset_dirLoad (s : State) : (endOfScanReset s).dirLoad = s.dirLoad := rfl
@[simp] theorem endOfScanReset_dirReset (s : State) : (endOfScanReset s).dirReset = s.dirReset := rfl
@[simp] theorem endOfScanReset_inited (s : State) : (endOfScanReset s).inited = s.inited := rfl
@[simp] theorem endOfScanReset_commands (s : State) : (endOfScanReset s).commands = s.commands := rfl
@[simp] theorem endOfScanReset_dataIn (s : State) : (endOfScanReset s).dataIn = s.dataIn := rfl
@[simp] theorem endOfScanReset_trace (s : State) :
    (endOfScanReset s).trace = s.trace ++ [.write .load false] ++ [.write .clock false] ++ [.write .reset false] :=
  rfl
@[simp] theorem endOfScanReset_results (s : State) : (endOfScanReset s).results = s.results := rfl
@[simp] theorem endOfScanReset_prevNow (s : State) : (endOfScanReset s).prevNow = s.prevNow := rfl

/-! ### `sample` -/

@[simp] theorem sample_cfg (s : State) : (sample s).cfg = s.cfg := rfl
@[simp] theorem sample_buf (s : State) :
    (sample s).buf = memWrite s.buf (position s) (dataAnswer (gpioWrite .clock false s)) :=
  rfl
@[simp] theorem sample_phase (s : State) : (sample s).phase = s.phase := rfl
@[simp] theorem sample_mcount (s : State) : (sample s).mcount = if s.pcount = 7 then s.mcount + 1 else s.mcount := rfl
@[simp] theorem sample_pcount (s : State) : (sample s).pcount = if s.pcount = 7 then 0 else s.pcount + 1 := rfl
@[simp] theorem sample_last (s : State) : (sample s).last = s.last := rfl
@[simp] theorem sample_outClock (s : State) : (sample s).outClock = false := rfl
@[simp] theorem sample_outLoad (s : State) : (sample s).outLoad = s.outLoad := rfl
@[simp] theorem sample_outReset (s : State) : (sample s).outReset = s.outReset := rfl
@[simp] theorem sample_dirData (s : State) : (sample s).dirData = s.dirData := rfl
@[simp] theorem sample_dirClock (s : State) : (sample s).dirClock = s.dirClock := rfl
@[simp] theorem sample_dirLoad (s : State) : (sample s).dirLoad = s.dirLoad := rfl
@[simp] theorem sample_dirReset (s : State) : (sample s).dirReset = s.dirReset := rfl
@[simp] theorem sample_inited (s : State) : (sample s).inited = s.inited := rfl
@[simp] theorem sample_commands (s : State) : (sample s).commands = s.commands := rfl
@[simp] theorem sample_dataIn (s : State) : (sample s).dataIn = s.dataIn.tail := rfl
@[simp] theorem sample_trace (s : State) :
    (sample s).trace = s.trace ++ [.write .clock false] ++ [.read (dataAnswer (gpioWrite .clock false s))] :=
  rfl
@[simp] theorem sample_results (s : State) : (sample s).results = s.results := rfl
@[simp] theorem sample_prevNow (s : State) : (sample s).prevNow = s.prevNow := rfl

/-! ### `configureLines` -/

@[simp] theorem configureLines_cfg (s : State) : (configureLines s).cfg = s.cfg := by
  simp [configureLines]
@[simp] theorem configureLines_buf (s : State) : (configureLines s).buf = s.buf := by
  simp [configureLines]
@[simp] theorem configureLines_phase (s : State) : (configureLines s).phase = s.phase := by
  simp [configureLines]
@[simp] theorem configureLines_mcount (s : State) : (configureLines s).mcount = s.mcount := by
  simp [configureLines]
@[simp] theorem configureLines_pcount (s : State) : (configureLines s).pcount = s.pcount := by
  simp [configureLines]
@[simp] theorem configureLines_last (s : State) : (configureLines s).last = s.last := by
  simp [configureLines]
@[simp] theorem configureLines_outClock (s : State) : (configureLines s).outClock = s.outClock := by
  simp [configureLines]
@[simp] theorem configureLines_outLoad (s : State) : (configureLines s).outLoad = s.outLoad := by
  simp [configureLines]
@[simp] theorem configureLines_outReset (s : State) : (configureLines s).outReset = s.outReset := by
  simp [configureLines]
@[simp] theorem configureLines_dirData (s : State) : (configureLines s).dirData = .inputPullup := by
  simp [configureLines]
@[simp] theorem configureLines_dirClock (s : State) : (configureLines s).dirClock = .output := by
  simp [configureLines]
@[simp] theorem configureLines_dirLoad (s : State) : (configureLines s).dirLoad = .output := by
  simp [configureLines]
@[simp] theorem configureLines_dirReset (s : State) : (configureLines s).dirReset = .output := by
  simp [configureLines]
@[simp] theorem configureLines_inited (s : State) : (configureLines s).inited = s.inited := by
  simp [configureLines]
@[simp] theorem configureLines_commands (s : State) : (configureLines s).commands = s.commands := by
  simp [configureLines]
@[simp] theorem configureLines_dataIn (s : State) : (configureLines s).dataIn = s.dataIn := by
  simp [configureLines]
@[simp] theorem configureLines_trace (s : State) :
    (configureLines s).trace = s.trace ++ [.cfg .data .inputPullup] ++ [.cfg .clock .output] ++ [.cfg .load .output] ++ [.cfg .reset .output] := by
  simp [configureLines]
@[simp] theorem configureLines_results (s : State) : (configureLines s).results = s.results := by
  simp [configureLines]
@[simp] theorem configureLines_prevNow (s : State) : (configureLines s).prevNow = s.prevNow := by
  simp [configureLines]

/-! ### `driveOutputsLow` -/

@[simp] theorem driveOutputsLow_cfg (s : State) : (driveOutputsLow s).cfg = s.cfg := by
  simp [driveOutputsLow]
@[simp] theorem driveOutputsLow_buf (s : State) : (driveOutputsLow s).buf = s.buf := by
  simp [driveOutputsLow]
@[simp] theorem driveOutputsLow_phase (s : State) : (driveOutputsLow s).phase = s.phase := by
  simp [driveOutputsLow]
@[simp] theorem driveOutputsLow_mcount (s : State) : (driveOutputsLow s).mcount = s.mcount := by
  simp [driveOutputsLow]
@[simp] theorem driveOutputsLow_pcount (s : State) : (driveOutputsLow s).pcount = s.pcount := by
  simp [driveOutputsLow]
@[simp] theorem driveOutputsLow_last (s : State) : (driveOutputsLow s).last = s.last := by
  simp [driveOutputsLow]
@[simp] theorem driveOutputsLow_outClock (s : State) : (driveOutputsLow s).outClock = false := by
  simp [driveOutputsLow]
@[simp] theorem driveOutputsLow_outLoad (s : State) : (driveOutputsLow s).outLoad = false := by
  simp [driveOutputsLow]
@[simp] theorem driveOutputsLow_outReset (s : State) : (driveOutputsLow s).outReset = false := by
  simp [driveOutputsLow]
@[simp] theorem driveOutputsLow_dirData (s : State) : (driveOutputsLow s).dirData = s.dirData := by
  simp [driveOutputsLow]
@[simp] theorem driveOutputsLow_dirClock (s : State) : (driveOutputsLow s).dirClock = s.dirClock := by
  simp [driveOutputsLow]
@[simp] theorem driveOutputsLow_dirLoad (s : State) : (driveOutputsLow s).dirLoad = s.dirLoad := by
  simp [driveOutputsLow]
@[simp] theorem driveOutputsLow_dirReset (s : State) : (driveOutputsLow s).dirReset = s.dirReset := by
  simp [driveOutputsLow]
@[simp] theorem driveOutputsLow_inited (s : State) : (driveOutputsLow s).inited = s.inited := by
  simp [driveOutputsLow]
@[simp] theorem driveOutputsLow_commands (s : State) : (driveOutputsLow s).commands = s.commands := by
  simp [driveOutputsLow]
@[simp] theorem driveOutputsLow_dataIn (s : State) : (driveOutputsLow s).dataIn = s.dataIn := by
  simp [driveOutputsLow]
@[simp] theorem driveOutputsLow_trace (s : State) :
    (driveOutputsLow s).trace = s.trace ++ [.write .load false] ++ [.write .clock false] ++ [.write .reset false] := by
  simp [driveOutputsLow]
@[simp] theorem driveOutputsLow_results (s : State) : (driveOutputsLow s).results = s.results := by
  simp [driveOutputsLow]
@[simp] theorem driveOutputsLow_prevNow (s : State) : (driveOutputsLow s).prevNow = s.prevNow := by
  simp [driveOutputsLow]

/-! ### `initialise` -/

@[simp] theorem initialise_cfg (s : State) : (initialise s).cfg = s.cfg := by
  simp [initialise]
@[simp] theorem initialise_buf (s : State) : (initialise s).buf = s.buf := by
  simp [initialise]
@[simp] theorem initialise_phase (s : State) : (initialise s).phase = s.phase := by
  simp [initialise]
@[simp] theorem initialise_mcount (s : State) : (initialise s).mcount = s.mcount := by
  simp [initialise]
@[simp] theorem initialise_pcount (s : State) : (initialise s).pcount = s.pcount := by
  simp [initialise]
@[simp] theorem initialise_last (s : State) : (initialise s).last = s.last := by
  simp [initialise]
@[simp] theorem initialise_outClock (s : State) : (initialise s).outClock = false := by
  simp [initialise]
@[simp] theorem initialise_outLoad (s : State) : (initialise s).outLoad = false := by
  simp [initialise]
@[simp] theorem initialise_outReset (s : State) : (initialise s).outReset = false := by
  simp [initialise]
@[simp] theorem initialise_dirData (s : State) : (initialise s).dirData = .inputPullup := by
  simp [initialise]
@[simp] theorem initialise_dirClock (s : State) : (initialise s).dirClock = .output := by
  simp [initialise]
@[simp] theorem initialise_dirLoad (s : State) : (initialise s).dirLoad = .output := by
  simp [initialise]
@[simp] theorem initialise_dirReset (s : State) : (initialise s).dirReset = .output := by
  simp [initialise]
@[simp] theorem initialise_inited (s : State) : (initialise s).inited = true := by
  simp [initialise]
@[simp] theorem initialise_commands (s : State) : (initialise s).commands = s.commands := by
  simp [initialise]
@[simp] theorem initialise_dataIn (s : State) : (initialise s).dataIn = s.dataIn := by
  simp [initialise]
@[simp] theorem initialise_trace (s : State) :
    (initialise s).trace = (driveOutputsLow (configureLines s)).trace := by
  simp [initialise]
@[simp] theorem initialise_results (s : State) : (initialise s).results = s.results := by
  simp [initialise]
@[simp] theorem initialise_prevNow (s : State) : (initialise s).prevNow = s.prevNow := by
  simp [initialise]

end Sys2Proof.Machine
end

