-- ==== Sys2Proof/Laws/Ops.lean ====
section
/-! SUPPORT. What each shared operation does, said once: the bit access to the Module Buffer, the sampling event, the
common tail of a phase step, the derived quantities, and the parts of the invariant. -/

namespace Sys2Proof.Machine

/-! ### Derived quantities -/

/-- `N` lies between `PIN_COUNT / 8` and one module more (R7). -/
theorem modules_bounds (c : Config) : c.pinCount ≤ 8 * c.modules ∧ 8 * c.modules ≤ c.pinCount + 7 := by
  unfold Config.modules moduleCount
  omega

theorem legal_iff (c : Config) :
    c.legal = true ↔ 0 < c.pinCount ∧ c.firstVpin + c.pinCount ≤ 2 ^ 16 ∧
      [c.dataLine, c.clockLine, c.loadLine, c.resetLine].Nodup ∧ 1 ≤ c.interval ∧ c.interval < 2 ^ 32 := by
  simp only [Config.legal, Config.pinsInRange, Config.linesDistinct, Config.intervalInRange, Bool.and_eq_true,
    decide_eq_true_eq]
  tauto

theorem modules_pos {c : Config} (h : c.legal = true) : 0 < c.modules := by
  have := ((legal_iff c).mp h).1
  have := (modules_bounds c).1
  omega

theorem phases_eq {c : Config} (h : 0 < c.modules) : c.phases = 16 * c.modules + 10 := by
  unfold Config.phases totalPhases
  omega

/-! ### Bit access to the Module Buffer -/

/-- `setBit` writes bit `p` and no other. -/
theorem setBit_getLsbD (x : Byte) (p q : Nat) (v : Level) (hp : p < 8) :
    (setBit x p v).getLsbD q = if q = p then v else x.getLsbD q := by
  by_cases hq : q < 8
  · unfold setBit
    cases v <;> by_cases h : q = p <;> simp [h, hq, hp]
  · rw [if_neg (by omega), BitVec.getLsbD_of_ge _ q (Nat.le_of_not_lt hq),
      BitVec.getLsbD_of_ge x q (Nat.le_of_not_lt hq)]

@[simp] theorem memWrite_length (buf : List Byte) (a : Nat) (v : Level) : (memWrite buf a v).length = buf.length := by
  simp [memWrite]

/-- A bit write changes the one bit it addresses, if its module exists. -/
theorem bufBit_memWrite (buf : List Byte) (a m p : Nat) (v : Level) (ha : a / 8 < buf.length) :
    bufBit (memWrite buf a v) m p = if m = a / 8 ∧ p = a % 8 then v else bufBit buf m p := by
  unfold bufBit memWrite
  by_cases hm : m = a / 8
  · subst hm
    simp only [List.getD_eq_getElem?_getD, List.getElem?_set_self ha, Option.getD_some, true_and]
    exact setBit_getLsbD _ _ _ _ (Nat.mod_lt _ (by omega))
  · simp [List.getD_eq_getElem?_getD, List.getElem?_set_ne (Ne.symm hm), hm]

/-- Reading the bit written gives the value written. -/
theorem memRead_memWrite_same (buf : List Byte) (a : Nat) (v : Level) (ha : a / 8 < buf.length) :
    memRead (memWrite buf a v) a = v := by
  simp [memRead, bufBit_memWrite _ _ _ _ _ ha]

/-- A bit write leaves every other bit alone, whether or not its module exists. -/
theorem memRead_memWrite_ne (buf : List Byte) (a b : Nat) (v : Level) (h : b ≠ a) :
    memRead (memWrite buf a v) b = memRead buf b := by
  by_cases ha : a / 8 < buf.length
  · unfold memRead
    rw [bufBit_memWrite _ _ _ _ _ ha, if_neg]
    omega
  · simp [memRead, memWrite, List.set_eq_of_length_le (Nat.le_of_not_lt ha)]

/-- Every write of the buffer keeps its canonical form. -/
theorem memWrite_bufferWf {c : Config} {buf : List Byte} (h : bufferWf c buf = true) (a : Nat) (v : Level) :
    bufferWf c (memWrite buf a v) = true := by
  simpa [bufferWf] using h

/-- Two buffers in canonical form with the same bits are equal. -/
theorem buffer_ext {c : Config} {b₁ b₂ : List Byte} (h₁ : bufferWf c b₁ = true) (h₂ : bufferWf c b₂ = true)
    (h : ∀ a, memRead b₁ a = memRead b₂ a) : b₁ = b₂ := by
  simp only [bufferWf, decide_eq_true_eq] at h₁ h₂
  refine List.ext_getElem (by omega) fun m hm₁ hm₂ => BitVec.eq_of_getLsbD_eq fun p hp => ?_
  have hb := h (8 * m + p)
  simp only [memRead, bufBit, show (8 * m + p) / 8 = m by omega, show (8 * m + p) % 8 = p by omega,
    List.getD_eq_getElem?_getD, List.getElem?_eq_getElem hm₁, List.getElem?_eq_getElem hm₂, Option.getD_some] at hb
  exact hb

/-- The buffer of a constructed state is in canonical form. -/
theorem bufferAtReset_bufferWf (c : Config) (bufInit : Nat → Byte) :
    bufferWf c (bufferAtReset c.modules bufInit) = true := by
  simp [bufferWf, bufferAtReset]

theorem reset_bufferWf : bufferWf State.reset.cfg State.reset.buf = true :=
  bufferAtReset_bufferWf _ _

/-! ### The pinbuffer mapper -/

/-- The range check over the integers (R131). -/
theorem served_iff (s : State) (vpin : Int) :
    served s vpin = true ↔ s.cfg.firstVpin ≤ vpin ∧ vpin < s.cfg.firstVpin + s.cfg.pinCount := by
  unfold served pinOffset
  rw [Bool.and_eq_true, decide_eq_true_eq, decide_eq_true_eq]
  omega

/-- A served pin reads its buffer bit (R132). -/
theorem readPin_of_served {s : State} {vpin : Int} (h₁ : s.cfg.firstVpin ≤ vpin)
    (h₂ : vpin < s.cfg.firstVpin + s.cfg.pinCount) : readPin s vpin = memRead s.buf (vpin - s.cfg.firstVpin).toNat := by
  unfold readPin
  rw [if_pos ((served_iff s vpin).mpr ⟨h₁, h₂⟩)]
  rfl

/-- A pin that is not served reads 0 (R131). -/
theorem readPin_of_unserved {s : State} {vpin : Int}
    (h : vpin < s.cfg.firstVpin ∨ s.cfg.firstVpin + s.cfg.pinCount ≤ vpin) : readPin s vpin = false := by
  unfold readPin
  exact if_neg fun hs => by
    have := (served_iff s vpin).mp hs
    omega

/-! ### The gate of `STEP` -/

/-- The modular subtraction over the naturals (R91). -/
theorem elapsed_eq (s : State) (now : Time) : elapsed s now = (now.toNat + (2 ^ 32 - s.last.toNat)) % 2 ^ 32 := by
  unfold elapsed
  rw [BitVec.toNat_sub, Nat.add_comm]

/-- The gate condition over the naturals (R92, R93). -/
theorem due_iff (s : State) (now : Time) :
    due s now = true ↔ s.cfg.interval ≤ (now.toNat + (2 ^ 32 - s.last.toNat)) % 2 ^ 32 := by
  unfold due
  rw [decide_eq_true_eq, elapsed_eq]

/-- The contract check of a `STEP`'s time over the naturals (R97, `spec/93` section 2). -/
theorem timeMonotonic_iff (prev : Option Time) (now : Time) :
    timeMonotonic prev now = true ↔
      ∀ before, prev = some before → (now.toNat + (2 ^ 32 - before.toNat)) % 2 ^ 32 < 2 ^ 31 := by
  cases prev with
  | none => simp [timeMonotonic]
  | some before => simp [timeMonotonic, BitVec.toNat_sub, Nat.add_comm]

/-! ### The environment's answer -/

theorem dataAnswer_cons {s : State} {b : Level} {rest : List Level} (h : s.dataIn = b :: rest) : dataAnswer s = b := by
  simp [dataAnswer, h]

theorem dataAnswer_nil {s : State} (h : s.dataIn = []) : dataAnswer s = Config.dataLevel s.trace := by
  simp [dataAnswer, h]

/-! ### The cursors -/

theorem position_div (s : State) : position s / 8 = s.mcount := by
  have := s.pcount.isLt
  unfold position
  omega

theorem position_mod (s : State) : position s % 8 = s.pcount.val := by
  have := s.pcount.isLt
  unfold position
  omega

/-- The cursor advance is one step of the position counter (R117). -/
theorem position_advanceCursors (s : State) : position (advanceCursors s) = position s + 1 := by
  unfold position
  rw [advanceCursors_mcount, advanceCursors_pcount]
  by_cases h : s.pcount = 7
  · simp only [h, if_true]
    norm_num
    omega
  · have hv : s.pcount.val ≠ 7 := fun e => h (Fin.ext e)
    have hl := s.pcount.isLt
    have : (s.pcount + 1).val = s.pcount.val + 1 := by
      rw [Fin.val_add]
      norm_num
      omega
    simp only [h, if_false, this]
    omega

@[simp] theorem position_sample (s : State) : position (sample s) = position s + 1 :=
  position_advanceCursors s

/-! ### The common tail of a phase step -/

/-- Before the end of a scan the tail is the increment alone (R119). -/
theorem finishPhase_of_ne {s : State} (h : s.mcount ≠ s.cfg.modules) : finishPhase s = incrementPhase s := by
  simp [finishPhase, endOfScan, h]

/-- When the cursor has reached `N` the tail is the end-of-scan reset (R118). -/
theorem finishPhase_of_eq {s : State} (h : s.mcount = s.cfg.modules) :
    finishPhase s = endOfScanReset (incrementPhase s) := by
  simp [finishPhase, endOfScan, h]

/-- What the tail can do: advance `PHASE`, or reset at the end of a scan. -/
theorem finishPhase_cases (s : State) :
    (s.mcount ≠ s.cfg.modules ∧ finishPhase s = incrementPhase s) ∨
      (s.mcount = s.cfg.modules ∧ finishPhase s = endOfScanReset (incrementPhase s)) := by
  by_cases h : s.mcount = s.cfg.modules
  · exact .inr ⟨h, finishPhase_of_eq h⟩
  · exact .inl ⟨h, finishPhase_of_ne h⟩

@[simp] theorem finishPhase_cfg (s : State) : (finishPhase s).cfg = s.cfg := by
  obtain ⟨-, h⟩ | ⟨-, h⟩ := finishPhase_cases s <;> simp [h]

@[simp] theorem finishPhase_buf (s : State) : (finishPhase s).buf = s.buf := by
  obtain ⟨-, h⟩ | ⟨-, h⟩ := finishPhase_cases s <;> simp [h]

@[simp] theorem finishPhase_last (s : State) : (finishPhase s).last = s.last := by
  obtain ⟨-, h⟩ | ⟨-, h⟩ := finishPhase_cases s <;> simp [h]

@[simp] theorem finishPhase_dirData (s : State) : (finishPhase s).dirData = s.dirData := by
  obtain ⟨-, h⟩ | ⟨-, h⟩ := finishPhase_cases s <;> simp [h]

@[simp] theorem finishPhase_dirClock (s : State) : (finishPhase s).dirClock = s.dirClock := by
  obtain ⟨-, h⟩ | ⟨-, h⟩ := finishPhase_cases s <;> simp [h]

@[simp] theorem finishPhase_dirLoad (s : State) : (finishPhase s).dirLoad = s.dirLoad := by
  obtain ⟨-, h⟩ | ⟨-, h⟩ := finishPhase_cases s <;> simp [h]

@[simp] theorem finishPhase_dirReset (s : State) : (finishPhase s).dirReset = s.dirReset := by
  obtain ⟨-, h⟩ | ⟨-, h⟩ := finishPhase_cases s <;> simp [h]

@[simp] theorem finishPhase_inited (s : State) : (finishPhase s).inited = s.inited := by
  obtain ⟨-, h⟩ | ⟨-, h⟩ := finishPhase_cases s <;> simp [h]

@[simp] theorem finishPhase_commands (s : State) : (finishPhase s).commands = s.commands := by
  obtain ⟨-, h⟩ | ⟨-, h⟩ := finishPhase_cases s <;> simp [h]

@[simp] theorem finishPhase_dataIn (s : State) : (finishPhase s).dataIn = s.dataIn := by
  obtain ⟨-, h⟩ | ⟨-, h⟩ := finishPhase_cases s <;> simp [h]

@[simp] theorem finishPhase_results (s : State) : (finishPhase s).results = s.results := by
  obtain ⟨-, h⟩ | ⟨-, h⟩ := finishPhase_cases s <;> simp [h]

@[simp] theorem finishPhase_prevNow (s : State) : (finishPhase s).prevNow = s.prevNow := by
  obtain ⟨-, h⟩ | ⟨-, h⟩ := finishPhase_cases s <;> simp [h]

/-! ### The three shapes of a phase -/

/-- What a sampling phase can do: run when the cursor is in range, else be refused by name (R123). -/
theorem samplePhase_cases (s : State) :
    (s.mcount < s.cfg.modules ∧ samplePhase s = .next (finishPhase (sample s))) ∨
      (s.cfg.modules ≤ s.mcount ∧ samplePhase s = .refused .cursorOutOfRange) := by
  unfold samplePhase
  split
  · exact .inl ⟨‹_›, rfl⟩
  · exact .inr ⟨by omega, rfl⟩

/-- Every phase is one of the twelve exact values or, from 12 on, even or odd (R75). -/
theorem phase_cases (p : Nat) :
    p = 0 ∨ p = 1 ∨ p = 2 ∨ p = 3 ∨ p = 4 ∨ p = 5 ∨ p = 6 ∨ p = 7 ∨ p = 8 ∨ p = 9 ∨ p = 10 ∨ p = 11 ∨
      (12 ≤ p ∧ p % 2 = 0) ∨ (12 ≤ p ∧ p % 2 = 1) := by
  omega

/-- The shape of the phase step at each value of `PHASE` (R74, R100). -/
theorem phaseStep_shapes (s : State) :
    ((s.phase ≤ 2 ∨ (6 ≤ s.phase ∧ s.phase ≤ 8)) ∧ phaseStep s = quietPhase s) ∨
      (s.phase = 3 ∧ phaseStep s = writePhase .load true s) ∨
      ((s.phase = 4 ∨ (12 ≤ s.phase ∧ s.phase % 2 = 0)) ∧ phaseStep s = writePhase .clock true s) ∨
      ((s.phase = 5 ∨ (13 ≤ s.phase ∧ s.phase % 2 = 1)) ∧ phaseStep s = samplePhase s) ∨
      (s.phase = 9 ∧ phaseStep s = writePhase .reset true s) ∨
      (s.phase = 10 ∧ phaseStep s = writePhase .reset false s) ∨
      (s.phase = 11 ∧ phaseStep s = writePhase .load false s) := by
  unfold phaseStep
  obtain h | h | h | h | h | h | h | h | h | h | h | h | ⟨h, he⟩ | ⟨h, ho⟩ := phase_cases s.phase
  · exact .inl ⟨by omega, by rw [h]; rfl⟩
  · exact .inl ⟨by omega, by rw [h]; rfl⟩
  · exact .inl ⟨by omega, by rw [h]; rfl⟩
  · exact .inr (.inl ⟨h, by rw [h]; rfl⟩)
  · exact .inr (.inr (.inl ⟨.inl h, by rw [h]; rfl⟩))
  · exact .inr (.inr (.inr (.inl ⟨.inl h, by rw [h]; rfl⟩)))
  · exact .inl ⟨by omega, by rw [h]; rfl⟩
  · exact .inl ⟨by omega, by rw [h]; rfl⟩
  · exact .inl ⟨by omega, by rw [h]; rfl⟩
  · exact .inr (.inr (.inr (.inr (.inl ⟨h, by rw [h]; rfl⟩))))
  · exact .inr (.inr (.inr (.inr (.inr (.inl ⟨h, by rw [h]; rfl⟩)))))
  · exact .inr (.inr (.inr (.inr (.inr (.inr ⟨h, by rw [h]; rfl⟩)))))
  · exact .inr (.inr (.inl ⟨.inr ⟨h, he⟩, by rw [select_of_ge _ h, if_pos he]; rfl⟩))
  · exact .inr (.inr (.inr (.inl ⟨.inr ⟨by omega, ho⟩, by rw [select_of_ge _ h, if_neg (by omega)]; rfl⟩)))

/-- What a phase step can do when it answers a next state: nothing, one line write, or a sampling event in range; then the
common tail. -/
theorem phaseStep_cases {s t : State} (h : phaseStep s = .next t) :
    t = finishPhase s ∨ (∃ l v, t = finishPhase (gpioWrite l v s)) ∨
      ((s.phase = 5 ∨ (13 ≤ s.phase ∧ s.phase % 2 = 1)) ∧ s.mcount < s.cfg.modules ∧ t = finishPhase (sample s)) := by
  have write : ∀ {l v}, phaseStep s = writePhase l v s → ∃ l v, t = finishPhase (gpioWrite l v s) := fun {l v} e =>
    ⟨l, v, by rw [e] at h; simpa [writePhase] using h.symm⟩
  obtain ⟨-, e⟩ | ⟨-, e⟩ | ⟨-, e⟩ | ⟨hp, e⟩ | ⟨-, e⟩ | ⟨-, e⟩ | ⟨-, e⟩ := phaseStep_shapes s
  · exact .inl (by rw [e] at h; simpa [quietPhase] using h.symm)
  · exact .inr (.inl (write e))
  · exact .inr (.inl (write e))
  · rw [e] at h
    obtain ⟨hm, e'⟩ | ⟨-, e'⟩ := samplePhase_cases s <;> rw [e'] at h
    · exact .inr (.inr ⟨hp, hm, by simpa using h.symm⟩)
    · cases h
  · exact .inr (.inl (write e))
  · exact .inr (.inl (write e))
  · exact .inr (.inl (write e))

/-- What a phase step leaves as it was: every field but the counters, the outputs, the trace and the answers, and every
buffer bit but, in a sampling phase, the one at the cursors. -/
theorem phaseStep_frame {s t : State} (h : phaseStep s = .next t) :
    t.last = s.last ∧ t.cfg = s.cfg ∧ (∀ l, lineMode t l = lineMode s l) ∧ t.inited = s.inited ∧
      t.commands = s.commands ∧ t.results = s.results ∧ t.prevNow = s.prevNow ∧ t.buf.length = s.buf.length ∧
      (∀ a, memRead t.buf a ≠ memRead s.buf a →
        a = position s ∧ (s.phase = 5 ∨ (13 ≤ s.phase ∧ s.phase % 2 = 1))) := by
  obtain rfl | ⟨l, v, rfl⟩ | ⟨hp, -, rfl⟩ := phaseStep_cases h
  all_goals refine ⟨by simp, by simp, fun l => by cases l <;> simp [lineMode], by simp, by simp, by simp, by simp, by simp,
    fun a h => ?_⟩
  · simp at h
  · simp at h
  · refine ⟨by_contra fun hne => ?_, hp⟩
    simp [memRead_memWrite_ne _ _ _ _ hne] at h

/-! ### The parts of the invariant -/

theorem scheduled_iff (s : State) :
    scheduled s = true ↔ s.cfg.legal = true ∧ s.buf.length = s.cfg.modules ∧
      s.phase ≤ 16 * s.cfg.modules + 9 ∧ position s = scheduledPosition s.phase := by
  simp only [scheduled, bufferWf, Bool.and_eq_true, decide_eq_true_eq]
  tauto

/-- The waveform, line by line (R36 (c) to (e)). -/
theorem waveform_iff (s : State) :
    waveform s = true ↔ (s.outLoad = true ↔ 4 ≤ s.phase ∧ s.phase ≤ 11) ∧
      (s.outClock = true ↔ s.phase = 5 ∨ (13 ≤ s.phase ∧ s.phase % 2 = 1)) ∧ (s.outReset = true ↔ s.phase = 10) := by
  have key : ∀ (b : Level) (l : OutLine), b = levelAt l s.phase ↔ (b = true ↔ levelAt l s.phase = true) :=
    fun b l => Bool.eq_iff_iff
  simp only [waveform, Bool.and_eq_true, decide_eq_true_eq, key]
  simp only [levelAt, decide_eq_true_eq]
  tauto

/-- The schedule depends on the configuration, the buffer, the phase and the cursors alone. -/
theorem scheduled_congr {s t : State} (h₁ : t.cfg = s.cfg) (h₂ : t.buf = s.buf) (h₃ : t.phase = s.phase)
    (h₄ : t.mcount = s.mcount) (h₅ : t.pcount = s.pcount) : scheduled t = scheduled s := by
  have hpos : position t = position s := by simp only [position, h₄, h₅]
  simp only [scheduled, h₁, h₂, h₃, hpos]

/-- The waveform depends on the phase and the three outputs alone. -/
theorem waveform_congr {s t : State} (h₁ : t.phase = s.phase) (h₂ : t.outClock = s.outClock)
    (h₃ : t.outLoad = s.outLoad) (h₄ : t.outReset = s.outReset) : waveform t = waveform s := by
  simp only [waveform, h₁, h₂, h₃, h₄]

@[simp] theorem scheduled_takeCommand (s : State) : scheduled (takeCommand s) = scheduled s :=
  scheduled_congr rfl rfl rfl rfl rfl

@[simp] theorem scheduled_recordTime (now : Time) (s : State) : scheduled (recordTime now s) = scheduled s :=
  scheduled_congr rfl rfl rfl rfl rfl

@[simp] theorem scheduled_noteTime (now : Time) (s : State) : scheduled (noteTime now s) = scheduled s :=
  scheduled_congr rfl rfl rfl rfl rfl

@[simp] theorem scheduled_returnResult (rd : Rd) (s : State) : scheduled (returnResult rd s) = scheduled s :=
  scheduled_congr rfl rfl rfl rfl rfl

@[simp] theorem scheduled_initialise (s : State) : scheduled (initialise s) = scheduled s :=
  scheduled_congr (by simp) (by simp) (by simp) (by simp) (by simp)

@[simp] theorem waveform_takeCommand (s : State) : waveform (takeCommand s) = waveform s :=
  waveform_congr rfl rfl rfl rfl

@[simp] theorem waveform_recordTime (now : Time) (s : State) : waveform (recordTime now s) = waveform s :=
  waveform_congr rfl rfl rfl rfl

@[simp] theorem waveform_noteTime (now : Time) (s : State) : waveform (noteTime now s) = waveform s :=
  waveform_congr rfl rfl rfl rfl

@[simp] theorem waveform_returnResult (rd : Rd) (s : State) : waveform (returnResult rd s) = waveform s :=
  waveform_congr rfl rfl rfl rfl

@[simp] theorem due_takeCommand (s : State) (now : Time) : due (takeCommand s) now = due s now := rfl

@[simp] theorem due_noteTime (t now : Time) (s : State) : due (noteTime t s) now = due s now := rfl

/-- A phase that does not sample keeps the scheduled position (R36 (b)). -/
theorem scheduledPosition_succ_of_quiet {p : Nat} (h : p ≠ 5) (h' : ¬(13 ≤ p ∧ p % 2 = 1)) :
    scheduledPosition (p + 1) = scheduledPosition p := by
  unfold scheduledPosition
  rcases lt_or_ge p 5 with h₁ | h₁
  · rw [if_pos (by omega), if_pos (by omega)]
  · rcases lt_or_ge p 11 with h₂ | h₂
    · rw [if_neg (by omega), if_pos (by omega), if_neg (by omega), if_pos (by omega)]
    · rcases Nat.eq_or_lt_of_le h₂ with rfl | h₃
      · rfl
      · rw [if_neg (by omega), if_neg (by omega), if_neg (by omega), if_neg (by omega)]
        omega

/-- A sampling phase advances the scheduled position by one (R36 (b)). -/
theorem scheduledPosition_succ_of_sampling {p : Nat} (h : p = 5 ∨ (13 ≤ p ∧ p % 2 = 1)) :
    scheduledPosition (p + 1) = scheduledPosition p + 1 := by
  obtain rfl | ⟨h, h'⟩ := h
  · rfl
  · unfold scheduledPosition
    rw [if_neg (by omega), if_neg (by omega), if_neg (by omega), if_neg (by omega)]
    omega

/-- On schedule the module cursor is in range (R35). -/
theorem mcount_lt_of_scheduled {s : State} (h : scheduled s = true) : s.mcount < s.cfg.modules := by
  obtain ⟨hl, -, hp, hpos⟩ := (scheduled_iff s).mp h
  have := modules_pos hl
  unfold position scheduledPosition at hpos
  split at hpos
  · omega
  · split at hpos <;> omega

end Sys2Proof.Machine
end

