-- ==== Sys2Proof/Laws/Exec.lean ====
section
/-! SUPPORT. What `STEP` and one step of the system can do, said once (inversion lemmas), and the phase step as the
execution of the decoded micro-operation. -/

namespace Sys2Proof.Machine

/-- The sequencer runs the instruction the phase decode gives: the two select with the same `PhaseTable.select`. -/
theorem phaseStep_eq_exec (s : State) : phaseStep s = exec (decodePhase s.phase) s := by
  unfold phaseStep decodePhase
  obtain h | h | h | h | h | h | h | h | h | h | h | h | ⟨h, he⟩ | ⟨h, ho⟩ := phase_cases s.phase
  all_goals first
    | (rw [h]; rfl)
    | (rw [select_of_ge _ h, select_of_ge _ h]; split <;> rfl)

/-- What `STEP` can do when it answers a next state: within the contract, nothing but the note of its time when not due, one
phase step besides when due (R92, R93). -/
theorem execStep_cases {now : Time} {s t : State} (h : execStep now s = .next t) :
    s.inited = true ∧ timeMonotonic s.prevNow now = true ∧ ((due s now = false ∧ t = noteTime now s) ∨
      (due s now = true ∧ phaseStep (recordTime now (noteTime now s)) = .next t)) := by
  unfold execStep at h
  split at h
  · cases h
  · split at h
    · cases h
    · refine ⟨by simpa using ‹¬s.inited = false›, by simpa using ‹¬timeMonotonic s.prevNow now = false›, ?_⟩
      split at h
      · exact .inr ⟨‹_›, h⟩
      · exact .inl ⟨by simpa using ‹¬due s now = true›, by simpa using h.symm⟩

/-- A `STEP` within the contract that is not due notes its time (R92). -/
theorem execStep_notDue {now : Time} {s : State} (hi : s.inited = true) (hm : timeMonotonic s.prevNow now = true)
    (hd : due s now = false) : execStep now s = .next (noteTime now s) := by
  simp [execStep, hi, hm, hd]

/-- A `STEP` within the contract that is due performs one phase step (R93). -/
theorem execStep_due {now : Time} {s : State} (hi : s.inited = true) (hm : timeMonotonic s.prevNow now = true)
    (hd : due s now = true) : execStep now s = phaseStep (recordTime now (noteTime now s)) := by
  simp [execStep, hi, hm, hd]

/-- With no command the step changes nothing (R165). -/
theorem step_idle {s : State} (h : s.commands = []) : step s = .next s := by
  simp [step, fetch, h]

/-- With a command word at the head the step performs its host operation. -/
theorem step_command {s : State} {w : HostWord} {rest : List HostWord} (h : s.commands = w :: rest) :
    step s = exec (decodeHost w) (takeCommand s) := by
  simp [step, fetch, h]

/-- A command word decodes to one of the four host operations (R71). -/
theorem decodeHost_cases (w : HostWord) :
    decodeHost w = .hnop (hostArg w) ∨ decodeHost w = .init (hostArg w) ∨ decodeHost w = .step (hostArg w) ∨
      decodeHost w = .read (hostArg w).toNat := by
  unfold decodeHost
  split
  · exact .inl rfl
  · split
    · exact .inr (.inl rfl)
    · split
      · exact .inr (.inr (.inl rfl))
      · exact .inr (.inr (.inr rfl))

/-- What one step can do when it answers a next state: no command, or one of the four host operations on the state with
its word taken. -/
theorem step_cases {s t : State} (h : step s = .next t) :
    (fetch s = none ∧ t = s) ∨
      (∃ arg, fetch s = some (.hnop arg, takeCommand s) ∧ t = takeCommand s) ∨
      (∃ arg, fetch s = some (.init arg, takeCommand s) ∧ t = initialise (takeCommand s)) ∨
      (∃ now, fetch s = some (.step now, takeCommand s) ∧ execStep now (takeCommand s) = .next t) ∨
      (∃ vpin, fetch s = some (.read vpin, takeCommand s) ∧
        t = returnResult (BitVec.ofBool (readPin (takeCommand s) vpin)) (takeCommand s)) := by
  cases hc : s.commands with
  | nil =>
    rw [step_idle hc] at h
    exact .inl ⟨by simp [fetch, hc], by simpa using h.symm⟩
  | cons w rest =>
    rw [step_command hc] at h
    refine .inr ?_
    have hf : fetch s = some (decodeHost w, takeCommand s) := by simp [fetch, hc]
    obtain hd | hd | hd | hd := decodeHost_cases w <;> rw [hd] at h hf
    · exact .inl ⟨_, hf, by simpa [exec, execHnop] using h.symm⟩
    · exact .inr (.inl ⟨_, hf, by simpa [exec, execInit] using h.symm⟩)
    · exact .inr (.inr (.inl ⟨_, hf, h⟩))
    · exact .inr (.inr (.inr ⟨_, hf, by simpa [exec, execRead] using h.symm⟩))

end Sys2Proof.Machine
end

