-- ==== Sys2Proof/Laws/PerInstr.lean ====
section
/-! SUPPORT. Per-instruction law `TableRow`: the encoder's word of a well-formed instruction is a word of that
instruction's row of `spec/opcode_table.json`: its width, its masked bits, its side condition. -/

namespace Sys2Proof.Laws.TableRow

/-- The encoder's word lies in the row the opcode table gives the instruction. -/
def Statement (i : Instr) : Prop :=
  i.wellFormed = true → (opcodeRow i).admits (encode i) = true

/-- A code of format `H` lies in the row of its selector. -/
theorem admits_hostCode (op : BitVec 2) (arg : Arg) : (hostRow op.toNat).admits (hostCode op arg) = true := by
  have hop : ∀ o : BitVec 2, o &&& 3#2 = o := by decide
  have hm : (hostWord op arg).toNat &&& 0x300000000 = op.toNat * 0x100000000 := by
    have h : hostWord op arg &&& ((3#2 ++ 0#32 : BitVec 34)) = hostWord op 0 := by
      change ((op ++ arg) &&& (3#2 ++ 0#32) : BitVec (2 + 32)) = op ++ 0#32
      rw [BitVec.and_append, hop, BitVec.and_zero]
    have := congrArg BitVec.toNat h
    rw [BitVec.toNat_and, hostWord_toNat op 0] at this
    simpa using this
  simp only [OpcodeRow.admits, Bool.and_eq_true]
  exact ⟨⟨⟨decide_eq_true rfl, decide_eq_true (hostCode_lt op arg)⟩, decide_eq_true hm⟩,
    decide_eq_true (Nat.zero_le _)⟩

theorem hnop (arg : Arg) : Statement (.hnop arg) := fun _ => admits_hostCode 0b00#2 arg
theorem init (arg : Arg) : Statement (.init arg) := fun _ => admits_hostCode 0b01#2 arg
theorem step (now : Time) : Statement (.step now) := fun _ => admits_hostCode 0b10#2 now
theorem read (vpin : Int) : Statement (.read vpin) := fun _ => admits_hostCode 0b11#2 (BitVec.ofInt 32 vpin)
theorem idle0 : Statement .idle0 := fun _ => by decide
theorem idle1 : Statement .idle1 := fun _ => by decide
theorem idle2 : Statement .idle2 := fun _ => by decide
theorem loadStrobe : Statement .loadStrobe := fun _ => by decide
theorem firstClock : Statement .firstClock := fun _ => by decide
theorem firstSample : Statement .firstSample := fun _ => by decide
theorem hold6 : Statement .hold6 := fun _ => by decide
theorem hold7 : Statement .hold7 := fun _ => by decide
theorem hold8 : Statement .hold8 := fun _ => by decide
theorem resetPulseStart : Statement .resetPulseStart := fun _ => by decide
theorem resetPulseEnd : Statement .resetPulseEnd := fun _ => by decide
theorem loadRelease : Statement .loadRelease := fun _ => by decide
theorem shiftClock : Statement .shiftClock := fun _ => by decide
theorem shiftSample : Statement .shiftSample := fun _ => by decide

end Sys2Proof.Laws.TableRow
end

