-- ==== Sys2Proof/Tests/Slice0.lean ====
section
/-! SUPPORT. Tests, each about one step on a small state: ill-formed terms refused; words written out from the spec's
encodings; the vectors of `spec/95_test_vectors.md` (the section is named at each test); and, for every obligation with
hypotheses, a state that meets them. -/

namespace Sys2Proof.Machine.Tests

/-! ### Helpers -/

/-- Twelve pins on two modules at base 100: the configuration of program P2 and of section Q-1 (`N = 2`). -/
def demoConfig : Config where
  firstVpin := 100
  pinCount := 12
  interval := 400
  dataLine := ⟨0⟩
  clockLine := ⟨1⟩
  loadLine := ⟨2⟩
  resetLine := ⟨3⟩

/-- The demo instance after `INIT`, at a phase with cursors and outputs, as section Q-1 writes its "before" column. -/
def demoAt (phase mcount : Nat) (pcount : Fin 8) (load clock reset : Level) (data : List Level) : State :=
  { State.constructed demoConfig (fun _ => 0) 1200 (fun _ => false) with
    phase := phase, mcount := mcount, pcount := pcount
    outLoad := load, outClock := clock, outReset := reset
    dirData := .inputPullup, dirClock := .output, dirLoad := .output, dirReset := .output
    inited := true, dataIn := data }

/-- The demo instance right after hardware reset. -/
def demoReset : State :=
  State.constructed demoConfig (fun _ => 0) 0 (fun _ => false)

/-- The outcome is a next state that passes the check. -/
def nextIs (o : Host.Outcome State Fault Refusal) (check : State → Bool) : Bool :=
  match o with
  | .next t => check t
  | .fault _ => false
  | .refused _ => false

/-- `PHASE`, cursors, outputs LOAD CLOCK RESET, buffer and events, as section Q-1 writes its "after" columns. -/
def after (phase mcount : Nat) (pcount : Fin 8) (load clock reset : Level) (buf : List Byte) (events : List Event)
    (t : State) : Bool :=
  decide (t.phase = phase ∧ t.mcount = mcount ∧ t.pcount = pcount ∧ t.outLoad = load ∧ t.outClock = clock ∧
    t.outReset = reset ∧ t.buf = buf ∧ t.trace = events)

/-! ### Ill-formed terms are refused -/

theorem test_illformed_read_negative : (Instr.read (-1)).wellFormed = false := by decide
theorem test_illformed_read_above_field : (Instr.read (2 ^ 32)).wellFormed = false := by decide
theorem test_wellformed_read_top : (Instr.read (2 ^ 32 - 1)).wellFormed = true := by decide
theorem test_illegal_pin_count_zero : ({ demoConfig with pinCount := 0 } : Config).legal = false := by decide
theorem test_illegal_pin_range : ({ demoConfig with firstVpin := 65525 } : Config).legal = false := by decide
theorem test_legal_pin_range_top : ({ demoConfig with firstVpin := 65524 } : Config).legal = true := by decide
theorem test_illegal_lines : ({ demoConfig with loadLine := ⟨3⟩ } : Config).legal = false := by decide
theorem test_illegal_interval_zero : ({ demoConfig with interval := 0 } : Config).legal = false := by decide
theorem test_illegal_interval_top : ({ demoConfig with interval := 2 ^ 32 } : Config).legal = false := by decide

/-! ### Words written out from the encodings (R70, R71, R74; section I-1, T-1, R-1, Q-1) -/

theorem test_decode_hnop : decodeTableWord 40 0b00_11111111111111111111111111111111 = some (.hnop 0xFFFFFFFF) := by decide
theorem test_decode_init : decodeTableWord 40 0b01_00010010001101000101011001111000 = some (.init 0x12345678) := by decide
theorem test_decode_step : decodeTableWord 40 0b10_00000000000000000000000110010000 = some (.step 400) := by decide
theorem test_decode_read : decodeTableWord 40 0b11_00000000000000000000000001100100 = some (.read 100) := by decide
theorem test_decode_width34 : decodeTableWord 34 0x3FFFFFFFF = some (.read 4294967295) := by decide
theorem test_decode_idle0 : decodeTableWord 32 0 = some .idle0 := by decide
theorem test_decode_idle1 : decodeTableWord 32 1 = some .idle1 := by decide
theorem test_decode_idle2 : decodeTableWord 32 2 = some .idle2 := by decide
theorem test_decode_loadStrobe : decodeTableWord 32 3 = some .loadStrobe := by decide
theorem test_decode_firstClock : decodeTableWord 32 4 = some .firstClock := by decide
theorem test_decode_firstSample : decodeTableWord 32 5 = some .firstSample := by decide
theorem test_decode_hold6 : decodeTableWord 32 6 = some .hold6 := by decide
theorem test_decode_hold7 : decodeTableWord 32 7 = some .hold7 := by decide
theorem test_decode_hold8 : decodeTableWord 32 8 = some .hold8 := by decide
theorem test_decode_resetPulseStart : decodeTableWord 32 9 = some .resetPulseStart := by decide
theorem test_decode_resetPulseEnd : decodeTableWord 32 10 = some .resetPulseEnd := by decide
theorem test_decode_loadRelease : decodeTableWord 32 11 = some .loadRelease := by decide
theorem test_decode_shiftClock : decodeTableWord 32 12 = some .shiftClock := by decide
theorem test_decode_shiftClock_top : decodeTableWord 32 0xFFFFFFFE = some .shiftClock := by decide
theorem test_decode_shiftSample : decodeTableWord 32 13 = some .shiftSample := by decide
theorem test_decode_no_format : decodeWord 16 0 = .error .noSuchFormat := by rfl
theorem test_decode_host_too_wide : decodeWord 40 0x400000000 = .error .hostWordTooWide := by rfl
theorem test_decode_phase_too_wide : decodeWord 32 0x100000000 = .error .phaseTooWide := by rfl

/-! ### Construction (section C-1) -/

theorem test_modules : [1, 7, 8, 9, 12, 16, 17, 24, 64, 496].map moduleCount = [1, 1, 1, 2, 2, 2, 3, 3, 8, 62] := by decide
theorem test_phases : [1, 2, 3, 8, 16, 62].map totalPhases = [26, 42, 58, 138, 266, 1002] := by decide

/-! ### The lifecycle family (section I-1) -/

theorem test_init_from_reset : nextIs (exec (.init 0x12345678) demoReset) (fun t =>
    linesConfigured t && t.inited && after 0 0 0 false false false [0, 0]
      [.cfg .data .inputPullup, .cfg .clock .output, .cfg .load .output, .cfg .reset .output,
        .write .load false, .write .clock false, .write .reset false] t) = true := by decide
theorem test_init_mid_scan : nextIs (exec (.init 0) (demoAt 5 0 0 true true false [])) (fun t =>
    decide (t.phase = 5 ∧ t.outLoad = false ∧ t.outClock = false ∧ t.inited = true)) = true := by decide
theorem test_hnop : nextIs (exec (.hnop 0xFFFFFFFF) (demoAt 5 0 0 true true false [true]))
    (fun t => decide (t = demoAt 5 0 0 true true false [true])) = true := by decide

/-! ### The tick scheduler (sections T-1, T-2) -/

theorem test_step_not_due : nextIs (exec (.step 1599) (demoAt 3 0 0 false false false []))
    (fun t => decide (t = { demoAt 3 0 0 false false false [] with prevNow := some 1599 })) = true := by decide
theorem test_step_due_at_interval : nextIs (exec (.step 1600) (demoAt 3 0 0 false false false []))
    (fun t => decide (t.last = 1600) && after 4 0 0 true false false [0, 0] [.write .load true] t) = true := by decide
theorem test_step_before_init : exec (.step 400) demoReset = .refused .stepBeforeInit := by rfl
theorem test_due_wraps : due { demoReset with last := 0xFFFFFF00 } 0x90 = true := by decide
theorem test_not_due_wraps : due { demoReset with last := 0xFFFFFF00 } 0x8F = false := by decide
theorem test_step_backwards : exec (.step 0x1387) { demoAt 3 0 0 false false false [] with
    last := 0x1388, prevNow := some 0x1388 } = .refused .timeNotMonotonic := by rfl
theorem test_due_backwards : due { demoReset with last := 0x1388 } 0x1387 = true := by decide

/-! ### The phase micro-operations (section Q-1) -/

theorem test_idle0 : nextIs (exec .idle0 (demoAt 0 0 0 false false false []))
    (after 1 0 0 false false false [0, 0] []) = true := by decide
theorem test_idle1 : nextIs (exec .idle1 (demoAt 1 0 0 false false false []))
    (after 2 0 0 false false false [0, 0] []) = true := by decide
theorem test_idle2 : nextIs (exec .idle2 (demoAt 2 0 0 false false false []))
    (after 3 0 0 false false false [0, 0] []) = true := by decide
theorem test_loadStrobe : nextIs (exec .loadStrobe (demoAt 3 0 0 false false false []))
    (after 4 0 0 true false false [0, 0] [.write .load true]) = true := by decide
theorem test_firstClock : nextIs (exec .firstClock (demoAt 4 0 0 true false false []))
    (after 5 0 0 true true false [0, 0] [.write .clock true]) = true := by decide
theorem test_firstSample_one : nextIs (exec .firstSample (demoAt 5 0 0 true true false [true]))
    (after 6 0 1 true false false [0x01, 0] [.write .clock false, .read true]) = true := by decide
theorem test_firstSample_zero : nextIs (exec .firstSample
      { demoAt 5 0 0 true true false [false] with buf := [0xFF, 0xFF] })
    (after 6 0 1 true false false [0xFE, 0xFF] [.write .clock false, .read false]) = true := by decide
theorem test_hold6 : nextIs (exec .hold6 (demoAt 6 0 1 true false false []))
    (after 7 0 1 true false false [0, 0] []) = true := by decide
theorem test_hold7 : nextIs (exec .hold7 (demoAt 7 0 1 true false false []))
    (after 8 0 1 true false false [0, 0] []) = true := by decide
theorem test_hold8 : nextIs (exec .hold8 (demoAt 8 0 1 true false false []))
    (after 9 0 1 true false false [0, 0] []) = true := by decide
theorem test_resetPulseStart : nextIs (exec .resetPulseStart (demoAt 9 0 1 true false false []))
    (after 10 0 1 true false true [0, 0] [.write .reset true]) = true := by decide
theorem test_resetPulseEnd : nextIs (exec .resetPulseEnd (demoAt 10 0 1 true false true []))
    (after 11 0 1 true false false [0, 0] [.write .reset false]) = true := by decide
theorem test_loadRelease : nextIs (exec .loadRelease (demoAt 11 0 1 true false false []))
    (after 12 0 1 false false false [0, 0] [.write .load false]) = true := by decide
theorem test_shiftClock : nextIs (exec .shiftClock (demoAt 12 0 1 false false false []))
    (after 13 0 1 false true false [0, 0] [.write .clock true]) = true := by decide
theorem test_shiftSample_module_boundary : nextIs (exec .shiftSample (demoAt 25 0 7 false true false [true]))
    (after 26 1 0 false false false [0x80, 0] [.write .clock false, .read true]) = true := by decide
theorem test_shiftSample_ends_scan : nextIs (exec .shiftSample (demoAt 41 1 7 false true false [true]))
    (after 0 0 0 false false false [0, 0x80] [.write .clock false, .read true, .write .load false, .write .clock false,
      .write .reset false]) = true := by decide
theorem test_sample_out_of_range : exec .shiftSample (demoAt 43 2 0 false true false [true]) = .refused .cursorOutOfRange := by
  rfl

/-! ### The pinbuffer mapper (section R-1: `BUF = 0x4D 0xFA`, `FIRST_VPIN = 100`, `PIN_COUNT = 12`) -/

theorem test_read_served : [100, 107, 108, 109, 110, 111].map (readPin { demoReset with buf := [0x4D, 0xFA] }) =
    [true, false, false, true, false, true] := by decide
theorem test_read_unserved : [99, 112, 115, 116, 0, -1, 4294967295].map (readPin { demoReset with buf := [0xFF, 0xFF] }) =
    [false, false, false, false, false, false, false] := by decide
theorem test_read_returns : nextIs (exec (.read 109) { demoReset with buf := [0x4D, 0xFA] })
    (fun t => decide (t.results = [1#1] ∧ t.trace = [])) = true := by decide

/-! ### Pseudo-operations (R81; the words of Scenario A, section S5) -/

theorem test_tick_lines : (tickLines demoReset 3).map HostLine.word = [0x200000190, 0x200000320, 0x2000004B0] := by decide
theorem test_scan_length : (scanLines demoReset).length = 42 := by decide
theorem test_readall_lines : readAllLines { demoConfig with pinCount := 2 } [1, 0] =
    [⟨.read 100, some 1⟩, ⟨.read 101, some 0⟩] := by decide
theorem test_readall_words : (readAllLines { demoConfig with pinCount := 2 } [1, 0]).map HostLine.word =
    [0x300000064, 0x300000065] := by decide

/-- Program P2's start, cut to its first four lines. -/
def demoProgram : HostProgram where
  config := demoConfig
  bufInit := [0xFF, 0xFF]
  data := [true]
  lines := [⟨.read 100, some 1⟩, ⟨.init 0, none⟩, ⟨.step 400, none⟩, ⟨.read 99, some 0⟩]

theorem test_loadProgram : nextIs (loadProgram demoProgram fun _ => true) (fun t =>
    decide (t.buf = [0xFF, 0xFF] ∧ t.dataIn = [true] ∧
      t.commands = [0x300000064, 0x100000000, 0x200000190, 0x300000063])) = true := by decide
theorem test_expectations_met : meetsExpectations demoProgram.lines [1, 0] = true := by decide
theorem test_expectations_missed : meetsExpectations demoProgram.lines [1, 1] = false := by decide

/-! ### The step, and a word placed for it -/

theorem test_step_idle : nextIs (step demoReset) (fun t => decide (t = demoReset)) = true := by decide
theorem test_step_takes_command : nextIs (step { demoAt 3 0 0 false false false [] with commands := [0x200000640, 0x300000064] })
    (fun t => decide (t.phase = 4 ∧ t.commands = [0x300000064])) = true := by decide
theorem test_withFetchWord_phase : nextIs (step (State.reset.withFetchWord 32 12))
    (fun t => decide (t.phase = 13 ∧ t.outClock = true ∧ t.last = 400)) = true := by decide
theorem test_withFetchWord_command : nextIs (step (State.reset.withFetchWord 40 0x300000064))
    (fun t => decide (t.results = [0#1] ∧ t.commands = [])) = true := by decide

/-! ### States that meet the hypotheses of the obligations -/

theorem witness_ConstructionGivesResetValues : demoConfig.legal = true := by decide

/-- One illegal configuration for each clause, at the boundary of its range. -/
theorem witness_IllegalParametersAreRefusedByName :
    ({ demoConfig with pinCount := 0 } : Config).pinCount = 0 ∧
    (0 < demoConfig.pinCount ∧ 2 ^ 16 < ({ demoConfig with firstVpin := 65525 } : Config).firstVpin + demoConfig.pinCount) ∧
    (demoConfig.firstVpin + demoConfig.pinCount ≤ 2 ^ 16 ∧
      ¬[demoConfig.dataLine, demoConfig.clockLine, demoConfig.resetLine, demoConfig.resetLine].Nodup) ∧
    [demoConfig.dataLine, demoConfig.clockLine, demoConfig.loadLine, demoConfig.resetLine].Nodup ∧
    2 ^ 32 ≤ ({ demoConfig with interval := 2 ^ 32 } : Config).interval ∧
    ({ demoConfig with interval := 0 } : Config).interval = 0 := by decide

theorem witness_ModuleCountIsTheCeiling : demoConfig.legal = true := by decide

theorem witness_RepeatedInitAtPhaseZeroIsHarmless :
    (demoAt 0 0 0 false false false []).phase = 0 ∧ waveform (demoAt 0 0 0 false false false []) = true ∧
      linesConfigured (demoAt 0 0 0 false false false []) = true ∧ (demoAt 0 0 0 false false false []).inited = true := by
  decide

/-- The first and the last served pin; one below the range and one past its end. -/
theorem witness_ReadReturnsTheServedBitElseZero :
    ((demoReset.cfg.firstVpin : Int) ≤ 100 ∧ (100 : Int) < demoReset.cfg.firstVpin + demoReset.cfg.pinCount) ∧
      ((demoReset.cfg.firstVpin : Int) ≤ 111 ∧ (111 : Int) < demoReset.cfg.firstVpin + demoReset.cfg.pinCount) ∧
      (99 : Int) < demoReset.cfg.firstVpin ∧ (demoReset.cfg.firstVpin : Int) + demoReset.cfg.pinCount ≤ 112 := by decide

/-- Two states with the same buffer and range that differ elsewhere. -/
theorem witness_ReadIsPureAndSeesOnlyTheBuffer :
    demoReset.buf = (demoAt 5 0 0 true true false []).buf ∧
      demoReset.cfg.firstVpin = (demoAt 5 0 0 true true false []).cfg.firstVpin ∧
      demoReset.cfg.pinCount = (demoAt 5 0 0 true true false []).cfg.pinCount ∧
      demoReset ≠ demoAt 5 0 0 true true false [] := by decide

theorem witness_ModularRangeCheckAgrees : demoReset.cfg.legal = true := by decide

/-- The first unexposed bit. -/
theorem witness_UnexposedBitsAreNeverReturned : demoReset.cfg.pinCount ≤ 12 := by decide

theorem witness_StepBeforeInitIsRefused : demoReset.inited = false := by decide

/-- `elapsed = INTERVAL - 1`. -/
theorem witness_StepThatIsNotDueChangesNothing :
    (demoAt 3 0 0 false false false []).inited = true ∧
      timeMonotonic (demoAt 3 0 0 false false false []).prevNow 1599 = true ∧
      ((1599 : Time).toNat + (2 ^ 32 - (demoAt 3 0 0 false false false []).last.toNat)) % 2 ^ 32 <
        (demoAt 3 0 0 false false false []).cfg.interval := by decide

/-- `elapsed = INTERVAL`. -/
theorem witness_DueStepRunsTheSelectedMicroOperation :
    (demoAt 3 0 0 false false false []).inited = true ∧
      timeMonotonic (demoAt 3 0 0 false false false []).prevNow 1600 = true ∧
      (demoAt 3 0 0 false false false []).cfg.interval ≤
        ((1600 : Time).toNat + (2 ^ 32 - (demoAt 3 0 0 false false false []).last.toNat)) % 2 ^ 32 := by decide

/-- The last phase of a scan, which samples and returns `PHASE` to 0, and a phase that does not sample. -/
theorem witness_DueStepCompletesOnSchedule :
    (scheduled (demoAt 41 1 7 false true false [true]) = true ∧ (demoAt 41 1 7 false true false [true]).inited = true ∧
      timeMonotonic (demoAt 41 1 7 false true false [true]).prevNow 1600 = true ∧
      (demoAt 41 1 7 false true false [true]).cfg.interval ≤
        ((1600 : Time).toNat + (2 ^ 32 - (demoAt 41 1 7 false true false [true]).last.toNat)) % 2 ^ 32 ∧
      (demoAt 41 1 7 false true false [true]).phase = 16 * (demoAt 41 1 7 false true false [true]).cfg.modules + 9 ∧
      (demoAt 41 1 7 false true false [true]).dataIn = [true] ∧
      decodePhase (demoAt 41 1 7 false true false [true]).phase = .shiftSample) ∧
    (scheduled (demoAt 3 0 0 false false false []) = true ∧ (demoAt 3 0 0 false false false []).inited = true ∧
      timeMonotonic (demoAt 3 0 0 false false false []).prevNow 1600 = true ∧
      (demoAt 3 0 0 false false false []).cfg.interval ≤
        ((1600 : Time).toNat + (2 ^ 32 - (demoAt 3 0 0 false false false []).last.toNat)) % 2 ^ 32 ∧
      decodePhase (demoAt 3 0 0 false false false []).phase ≠ .firstSample ∧
      decodePhase (demoAt 3 0 0 false false false []).phase ≠ .shiftSample) := by decide

/-- The clock has passed `2^32` since `LAST` was recorded and since the `STEP` before: the operand has wrapped to 0x90. The
other case, no `STEP` before, is that of `demoAt`. -/
theorem witness_GateSeesTheTrueElapsedTime :
    ({ demoAt 3 0 0 false false false [] with last := 0xFFFFFF00, prevNow := some 0xFFFFFF10 } : State).inited = true ∧
      (0xFFFFFF00 : Time) = BitVec.ofNat 32 4294967040 ∧
      4294967040 ≤ 4294967440 ∧ 4294967440 - 4294967040 < 2 ^ 32 ∧ BitVec.ofNat 32 4294967440 = (0x90 : Time) ∧
      (0xFFFFFF10 : Time) = BitVec.ofNat 32 4294967056 ∧ 4294967056 ≤ 4294967440 ∧
      4294967440 - 4294967056 < 2 ^ 31 ∧ (demoAt 3 0 0 false false false []).prevNow = none := by decide

/-- A `STEP` one unit back from the one before, and one that is exactly `2^31` after it. -/
theorem witness_TimeRunningBackwardsIsRefused :
    ({ demoAt 3 0 0 false false false [] with prevNow := some 0x1388 } : State).inited = true ∧
      2 ^ 31 ≤ ((0x1387 : Time).toNat + (2 ^ 32 - (0x1388 : Time).toNat)) % 2 ^ 32 ∧
      2 ^ 31 ≤ ((0x80001388 : Time).toNat + (2 ^ 32 - (0x1388 : Time).toNat)) % 2 ^ 32 := by decide

/-- The `STEP` before was not due: it came `INTERVAL - 1` after `LAST`. -/
def notDueBefore : State :=
  { demoAt 3 0 0 false false false [] with prevNow := some 1599, commands := [0x200000640] }

theorem witness_TickIsAlwaysDue :
    notDueBefore.cfg.legal = true ∧ notDueBefore.inited = true ∧ notDueBefore.cfg.interval < 2 ^ 31 ∧
      lastFollowed notDueBefore = true := by decide

theorem witness_EveryStepKeepsTheTimeBefore :
    demoConfig.legal = true ∧ notDueBefore.cfg.legal = true ∧ lastFollowed notDueBefore = true ∧
      completes (step notDueBefore) :=
  ⟨by decide, by decide, by decide, _, rfl⟩

/-- The last exact value, the first phase of each parity, and the highest 32-bit value. -/
theorem witness_PhaseDecodeIsTotal :
    11 ≤ 11 ∧ (12 ≤ 12 ∧ 12 % 2 = 0) ∧ (12 ≤ 13 ∧ 13 % 2 = 1) ∧ 0xFFFFFFFF < 2 ^ 32 := by decide

/-- The hypothesis of the five statements about phases that do not sample. -/
theorem witness_PhasesThatDoNotSample :
    (demoAt 3 0 0 false false false []).mcount ≠ (demoAt 3 0 0 false false false []).cfg.modules := by decide

/-- The module boundary, where the cursor wraps without ending the scan: all three hypotheses. -/
theorem witness_SamplingPhaseStoresTheLevelRead :
    (demoAt 25 0 7 false true false [true]).buf.length = (demoAt 25 0 7 false true false [true]).cfg.modules ∧
      (demoAt 25 0 7 false true false [true]).mcount < (demoAt 25 0 7 false true false [true]).cfg.modules ∧
      ¬((demoAt 25 0 7 false true false [true]).mcount + 1 = (demoAt 25 0 7 false true false [true]).cfg.modules ∧
        (demoAt 25 0 7 false true false [true]).pcount = 7) := by decide

theorem witness_LastSamplingPhaseEndsTheScan :
    (demoAt 41 1 7 false true false [true]).buf.length = (demoAt 41 1 7 false true false [true]).cfg.modules ∧
      (demoAt 41 1 7 false true false [true]).mcount + 1 = (demoAt 41 1 7 false true false [true]).cfg.modules ∧
      (demoAt 41 1 7 false true false [true]).pcount = 7 := by decide

theorem witness_EndOfScanResetIsUnconditional :
    (demoAt 12 2 0 false false false []).mcount = (demoAt 12 2 0 false false false []).cfg.modules := by decide

theorem witness_SamplingOutOfRangeIsRefused :
    (demoAt 13 2 0 false false false []).cfg.modules ≤ (demoAt 13 2 0 false false false []).mcount := by decide

/-- The cursor wraps, it does not, and it reaches `N` from `(N - 1, 7)`. -/
theorem witness_CursorsAdvanceLexicographically :
    (demoAt 25 0 7 false true false []).pcount = 7 ∧ (demoAt 13 0 1 false true false []).pcount ≠ 7 ∧
      (demoAt 41 1 7 false true false []).mcount < (demoAt 41 1 7 false true false []).cfg.modules ∧
      (demoAt 41 1 7 false true false []).mcount + 1 = (demoAt 41 1 7 false true false []).cfg.modules ∧
      (demoAt 41 1 7 false true false []).pcount = 7 ∧
      (advanceCursors (demoAt 41 1 7 false true false [])).mcount =
        (demoAt 41 1 7 false true false []).cfg.modules := by decide

theorem witness_BitWriteChangesOneBit :
    (demoAt 41 1 7 false true false []).buf.length = (demoAt 41 1 7 false true false []).cfg.modules ∧
      (demoAt 41 1 7 false true false []).mcount < (demoAt 41 1 7 false true false []).cfg.modules := by decide

theorem witness_HardwareResetIsOnSchedule : demoConfig.legal = true := by decide

/-- A state on schedule whose next command is the due `STEP` that ends the scan. -/
def endingStep : State :=
  { demoAt 41 1 7 false true false [true] with commands := [0x200000640] }

/-- A state on schedule whose next command is the due `STEP` of `LOAD_STROBE`. -/
def strobeStep : State :=
  { demoAt 3 0 0 false false false [] with commands := [0x200000640] }

/-- A state on schedule, at `PHASE = 0`, whose next command is `INIT`. -/
def initStep : State :=
  { demoAt 0 0 0 false false false [] with commands := [0x100000000] }

/-- Meets the hypotheses of `EveryStepKeepsTheSchedule` and, with its step, of `ConfigurationNeverChanges`. -/
theorem witness_StepOnSchedule : scheduled endingStep = true ∧ completes (step endingStep) :=
  ⟨by decide, _, rfl⟩

/-- A step of a scan: its command is no `INIT`. -/
theorem witness_EveryStepKeepsTheWaveform :
    scheduled endingStep = true ∧ endingStep.inited = true ∧ waveform endingStep = true ∧
      (∀ arg s', fetch endingStep = some (.init arg, s') → endingStep.phase = 0) ∧ completes (step endingStep) :=
  ⟨by decide, by decide, by decide, fun _ _ h => absurd h (by simp [fetch, endingStep, decodeHost, hostOp]), _, rfl⟩

/-- A repeated `INIT` at `PHASE = 0` meets them too. -/
theorem witness_EveryStepKeepsTheWaveform_init :
    scheduled initStep = true ∧ initStep.inited = true ∧ waveform initStep = true ∧
      (∀ arg s', fetch initStep = some (.init arg, s') → initStep.phase = 0) ∧ completes (step initStep) :=
  ⟨by decide, by decide, by decide, fun _ _ _ => by decide, _, rfl⟩

theorem witness_InitStartsTheWaveform : demoReset.phase = 0 := by decide

theorem witness_LinesStayConfigured : linesConfigured endingStep = true ∧ completes (step endingStep) :=
  ⟨by decide, _, rfl⟩

theorem witness_EveryStepAfterInitCompletes :
    scheduled notDueBefore = true ∧ notDueBefore.inited = true ∧
      ∀ now s', fetch notDueBefore = some (.step now, s') → timeMonotonic notDueBefore.prevNow now = true :=
  ⟨by decide, by decide, fun now s' h => by
    obtain ⟨rfl, -⟩ : 1600 = now ∧ _ := by simpa [fetch, notDueBefore, decodeHost, hostOp, hostArg] using h
    decide⟩

theorem witness_OutputsChangeOnlyInTicksAndInit :
    ∃ t, step strobeStep = .next t ∧ ∃ l, outLevel t l ≠ outLevel strobeStep l :=
  ⟨_, rfl, .load, by decide⟩

theorem witness_BufferChangesOnlyBySampling :
    ∃ t, step endingStep = .next t ∧ memRead t.buf 15 ≠ memRead endingStep.buf 15 :=
  ⟨_, rfl, by decide⟩

/-- A due `STEP` at the last phase, and a step that is not one. -/
theorem witness_PhaseAdvancesByOneOrReturnsToZero :
    (scheduled endingStep = true ∧ completes (step endingStep) ∧
      ∃ now s', fetch endingStep = some (.step now, s') ∧ due endingStep now = true) ∧
    (scheduled demoReset = true ∧ completes (step demoReset) ∧
      ¬∃ now s', fetch demoReset = some (.step now, s') ∧ due demoReset now = true) :=
  ⟨⟨by decide, ⟨_, rfl⟩, 1600, _, rfl, by decide⟩, by decide, ⟨_, rfl⟩, fun ⟨_, _, h, _⟩ => by cases h⟩

/-- From hardware reset: `READ`, `INIT`, then two `STEP`s. -/
def contractRun : State :=
  { demoReset with commands := [0x300000064, 0x100000000, 0x200000190, 0x200000320] }

/-- After `INIT`: two `STEP`s, each after the time before it. -/
def contractSteps : State :=
  { demoAt 3 0 0 false false false [] with prevNow := some 1200, commands := [0x200000640, 0x2000007D0] }

/-- A step that is no `STEP` and one that is; and words that break each part of the contract. -/
theorem witness_ContractRunsAreNeverRefused :
    (scheduled contractRun = true ∧ keepsContract contractRun.inited contractRun.prevNow contractRun.commands = true ∧
      ∀ now s', fetch contractRun ≠ some (.step now, s')) ∧
    (scheduled contractSteps = true ∧ keepsContract contractSteps.inited contractSteps.prevNow contractSteps.commands = true ∧
      ∃ s', fetch contractSteps = some (.step 1600, s')) ∧
    keepsContract false none [0x200000190] = false ∧ keepsContract true none [0x100000000] = false ∧
      keepsContract true (some 400) [0x2000000C8] = false :=
  ⟨⟨by decide, by decide, fun _ _ h => by simp [fetch, contractRun, decodeHost, hostOp] at h⟩,
    ⟨by decide, by decide, _, rfl⟩, by decide, by decide, by decide⟩

theorem witness_LastIsWrittenOnlyByADueStep : ∃ t, step strobeStep = .next t ∧ t.last ≠ strobeStep.last :=
  ⟨_, rfl, by decide⟩

theorem witness_EventsOfAPhaseStepAreBounded : scheduled (demoAt 41 1 7 false true false [true]) = true := by decide

/-- A `READ` step, the first case of `ResultsComeOnlyFromRead`; `strobeStep` is one of the second. -/
theorem witness_ResultsComeOnlyFromRead :
    completes (step { demoReset with commands := [0x300000064] }) ∧ completes (step strobeStep) :=
  ⟨⟨_, rfl⟩, ⟨_, rfl⟩⟩

/-- Scenario B's sixteen levels (section S6), one more waiting behind them. -/
def fedLevels : List Level :=
  [true, true, false, true, false, false, false, true, false, true, true, false, true, false, false, true]

theorem witness_OneScanStoresTheLevelsInOrder :
    scheduled (demoAt 0 0 0 false false false (fedLevels ++ [true])) = true ∧
      (demoAt 0 0 0 false false false (fedLevels ++ [true])).phase = 0 ∧
      fedLevels.length = 8 * (demoAt 0 0 0 false false false (fedLevels ++ [true])).cfg.modules ∧
      (demoAt 0 0 0 false false false (fedLevels ++ [true])).dataIn = fedLevels ++ [true] := by decide

/-- An operand at the top of its field, for the two statements over well-formed instructions. -/
theorem witness_DecodeOfEncodeGivesTheInstruction : (Instr.read 4294967295).wellFormed = true := by decide

theorem witness_StepRunsTheDecodedHostOperation :
    (Instr.step 1600).wellFormed = true ∧ (encode (.step 1600)).width = 34 ∧
      strobeStep.commands = [BitVec.ofNat 34 (encode (.step 1600)).value] ∧ demoReset.commands = [] := by decide

end Sys2Proof.Machine.Tests
end

section
/-! SUPPORT. The phase decode and the rows of format `P` (R74, R75): what each kind of row admits, and that a phase value
is of exactly the row of the instruction it decodes to. -/

namespace Sys2Proof

theorem admits_iff (r : OpcodeRow) (c : CodeWord) :
    r.admits c = true ↔
      ((c.width = r.width ∧ c.value < 2 ^ r.width) ∧ c.value &&& r.mask = r.pattern) ∧ r.least ≤ c.value := by
  simp only [OpcodeRow.admits, Bool.and_eq_true, decide_eq_true_eq]

/-- No phase value is of a row of format `H`: the widths differ. -/
theorem not_hostRow_admits_phaseCode (op p : Nat) : ¬ (hostRow op).admits (phaseCode p) = true := by
  simp [admits_iff, hostRow, phaseCode]

/-- Of the tests of a row of format `P` only the masked bits and the side condition tell 32-bit phase values apart. -/
theorem admits_phaseCode_iff {r : OpcodeRow} {p : Nat} (hr : r.width = 32) (hp : p < 2 ^ 32) :
    r.admits (phaseCode p) = true ↔ p &&& r.mask = r.pattern ∧ r.least ≤ p := by
  simp only [admits_iff, phaseCode, hr, hp, true_and]

/-- An exact row admits the one phase value it is named by (R75). -/
theorem exactRow_admits_iff {k p : Nat} (hp : p < 2 ^ 32) : (exactRow k).admits (phaseCode p) = true ↔ p = k := by
  have hmask : p &&& 0xFFFFFFFF = p := Nat.and_two_pow_sub_one_of_lt_two_pow hp
  rw [admits_phaseCode_iff rfl hp]
  simp [exactRow, hmask]

/-- A `SHIFT` row admits the phase values from 12 on that have its parity (R75). -/
theorem parityRow_admits_iff {bit p : Nat} (hp : p < 2 ^ 32) :
    (parityRow bit).admits (phaseCode p) = true ↔ 12 ≤ p ∧ p % 2 = bit := by
  rw [admits_phaseCode_iff rfl hp, and_comm]
  simp [parityRow]

theorem decodePhase_of_even {p : Nat} (h : 12 ≤ p) (he : p % 2 = 0) : decodePhase p = .shiftClock :=
  (select_of_ge phaseInstrs h).trans (if_pos he)

theorem decodePhase_of_odd {p : Nat} (h : 12 ≤ p) (ho : p % 2 = 1) : decodePhase p = .shiftSample :=
  (select_of_ge phaseInstrs h).trans (if_neg (by omega))

/-- The row of the instruction that a phase value below 12 selects is the exact row of that value. -/
theorem opcodeRow_decodePhase_of_le {p : Nat} (h : p ≤ 11) : opcodeRow (decodePhase p) = exactRow p := by
  interval_cases p <;> rfl

/-- A phase value is of the row of the instruction it decodes to. -/
theorem opcodeRow_decodePhase_admits {p : Nat} (hp : p < 2 ^ 32) :
    (opcodeRow (decodePhase p)).admits (phaseCode p) = true := by
  rcases Nat.lt_or_ge p 12 with h | h
  · rw [opcodeRow_decodePhase_of_le (by omega), exactRow_admits_iff hp]
  · rcases Nat.mod_two_eq_zero_or_one p with he | ho
    · rw [decodePhase_of_even h he]
      exact (parityRow_admits_iff hp).mpr ⟨h, he⟩
    · rw [decodePhase_of_odd h ho]
      exact (parityRow_admits_iff hp).mpr ⟨h, ho⟩

/-- A phase value is of no other instruction's row. -/
theorem decodePhase_eq_of_admits {p : Nat} {i : Instr} (hp : p < 2 ^ 32)
    (h : (opcodeRow i).admits (phaseCode p) = true) : decodePhase p = i := by
  cases i with
  | hnop | init | step | read => exact absurd h (not_hostRow_admits_phaseCode _ p)
  | idle0 | idle1 | idle2 | loadStrobe | firstClock | firstSample | hold6 | hold7 | hold8 | resetPulseStart
  | resetPulseEnd | loadRelease =>
    obtain rfl := (exactRow_admits_iff hp).mp h
    rfl
  | shiftClock =>
    obtain ⟨hge, he⟩ := (parityRow_admits_iff hp).mp h
    exact decodePhase_of_even hge he
  | shiftSample =>
    obtain ⟨hge, ho⟩ := (parityRow_admits_iff hp).mp h
    exact decodePhase_of_odd hge ho

/-- The rows of format `P` partition the 32-bit phase values as the decode does (R75). -/
theorem opcodeRow_admits_phaseCode_iff {p : Nat} {i : Instr} (hp : p < 2 ^ 32) :
    (opcodeRow i).admits (phaseCode p) = true ↔ decodePhase p = i :=
  ⟨decodePhase_eq_of_admits hp, fun h => h ▸ opcodeRow_decodePhase_admits hp⟩

/-- Settles O19: the values below 12 by evaluation, the parities from `select_of_ge`, the masks and the rows from what
each kind of row admits. -/
theorem phaseDecodeIsTotal : Obligations.PhaseDecodeIsTotal := by
  unfold Obligations.PhaseDecodeIsTotal
  refine ⟨rfl, rfl, rfl, rfl, rfl, rfl, rfl, rfl, rfl, rfl, rfl, rfl, fun _ => decodePhase_of_even,
    fun _ => decodePhase_of_odd, fun p hp => ?_, by decide, fun p i hp => opcodeRow_admits_phaseCode_iff hp⟩
  rw [opcodeRow_decodePhase_of_le hp]
  rfl

end Sys2Proof
end

section
/-! SUPPORT. The phase sequencer (`spec/42_phase_sequencer.md`): the bit write at the cursors, the cursor advance, the
sampling event as one update of the state, and the phases that write a line. -/

namespace Sys2Proof.Machine

/-! ### The bit write -/

/-- A bit write leaves every module alone but the one it addresses (R116). -/
theorem memWrite_getD_ne {buf : List Byte} {a m : Nat} (v : Level) (h : m ≠ a / 8) :
    (memWrite buf a v).getD m 0 = buf.getD m 0 := by
  simp [memWrite, List.getD_eq_getElem?_getD, List.getElem?_set_ne (Ne.symm h)]

/-- A bit write at the position is a bit write at the cursors (R52). -/
theorem bufBit_memWrite_position {s : State} (hm : s.mcount < s.buf.length) (v : Level) (m p : Nat) :
    bufBit (memWrite s.buf (position s) v) m p =
      if m = s.mcount ∧ p = s.pcount.val then v else bufBit s.buf m p := by
  rw [bufBit_memWrite _ _ _ _ _ (by rwa [position_div]), position_div, position_mod]

/-! ### The cursors -/

/-- The advance carries into `MCOUNT` (R117). -/
theorem advanceCursors_of_last {s : State} (h : s.pcount = 7) :
    advanceCursors s = { s with pcount := 0, mcount := s.mcount + 1 } := by
  simp [advanceCursors, h]

/-- The advance stays in the module (R117). -/
theorem advanceCursors_of_ne_last {s : State} (h : s.pcount ≠ 7) :
    advanceCursors s = { s with pcount := s.pcount + 1 } := by
  simp [advanceCursors, h]

/-- From within the buffer the advance reaches `N` from `(N - 1, 7)` alone (R117). -/
theorem advanceCursors_mcount_eq_modules_iff {s : State} (hm : s.mcount < s.cfg.modules) :
    (advanceCursors s).mcount = s.cfg.modules ↔ s.mcount + 1 = s.cfg.modules ∧ s.pcount = 7 := by
  by_cases hp : s.pcount = 7
  · simp [hp]
  · simp [hp, hm.ne]

/-! ### The sampling event -/

/-- The whole effect of a sampling event, with its two events in order (R115). -/
theorem sample_eq (s : State) :
    sample s = { s with
      buf := memWrite s.buf (position s) (dataAnswer (gpioWrite .clock false s))
      outClock := false, dataIn := s.dataIn.tail
      trace := s.trace ++ [.write .clock false, .read (dataAnswer (gpioWrite .clock false s))]
      mcount := if s.pcount = 7 then s.mcount + 1 else s.mcount
      pcount := if s.pcount = 7 then 0 else s.pcount + 1 } := by
  rw [List.append_cons]
  rfl

/-- Both sampling micro-operations are the one sampling phase (R106, R114). -/
theorem exec_sampling {i : Instr} (hi : i ∈ [Instr.firstSample, Instr.shiftSample]) (s : State) :
    exec i s = samplePhase s := by
  obtain rfl | rfl : i = .firstSample ∨ i = .shiftSample := by simpa using hi
  · rfl
  · rfl

/-- A sampling phase in range is the sampling event and the common tail (R106, R114). -/
theorem samplePhase_of_lt {s : State} (hm : s.mcount < s.cfg.modules) :
    samplePhase s = .next (finishPhase (sample s)) :=
  if_pos hm

/-- A sampling phase that does not end the scan is the sampling event and the increment of `PHASE` (R114). -/
theorem samplePhase_of_not_last {s : State} (hm : s.mcount < s.cfg.modules)
    (hl : ¬(s.mcount + 1 = s.cfg.modules ∧ s.pcount = 7)) :
    samplePhase s = .next (incrementPhase (sample s)) := by
  have hne : (sample s).mcount ≠ s.cfg.modules := mt (advanceCursors_mcount_eq_modules_iff hm).mp hl
  rw [samplePhase_of_lt hm, finishPhase_of_ne hne]

/-! ### The phases that write a line -/

/-- Before the end of a scan a phase that writes a line is the write and the increment of `PHASE` (R100). -/
theorem writePhase_of_ne {s : State} (h : s.mcount ≠ s.cfg.modules) (l : OutLine) (v : Level) :
    writePhase l v s = .next (incrementPhase (gpioWrite l v s)) :=
  congrArg Host.Outcome.next (finishPhase_of_ne h)

/-- Settles O24: the written bit from `bufBit_memWrite_position`, the event from `sample_eq`, the phase from
`samplePhase_of_not_last`. -/
theorem samplingPhaseStoresTheLevelRead : Obligations.SamplingPhaseStoresTheLevelRead := by
  unfold Obligations.SamplingPhaseStoresTheLevelRead
  intro s hb hm
  refine ⟨dataAnswer (gpioWrite .clock false s), _, _, fun c rest h => dataAnswer_cons (by simpa using h), ?_,
    bufBit_memWrite_position (by omega) _, rfl, sample_eq s, fun hl i hi => ?_⟩
  · simpa using hb
  · rw [exec_sampling hi, samplePhase_of_not_last hm hl, sample_eq]
    rfl

/-- Settles O29: `bufBit_memWrite_position` at the cursors and beside them, `memWrite_getD_ne` in the other modules. -/
theorem bitWriteChangesOneBit : Obligations.BitWriteChangesOneBit := by
  unfold Obligations.BitWriteChangesOneBit
  intro v s hb hm
  have hbit := bufBit_memWrite_position (s := s) (by omega) v
  refine ⟨memWrite s.buf (position s) v, rfl, by simpa using hb, ?_, fun p hp => ?_, fun m hne => ?_, ?_⟩
  · simp [hbit]
  · simp [hbit, hp]
  · exact memWrite_getD_ne v (by rwa [position_div])
  · rintro rfl
    exact sample_buf s

/-- Settles O21: the two are `writePhase` on `LOAD`. -/
theorem loadPhasesWriteLoad : Obligations.LoadPhasesWriteLoad := by
  unfold Obligations.LoadPhasesWriteLoad
  exact ⟨rfl, rfl, fun s h => ⟨writePhase_of_ne h .load true, writePhase_of_ne h .load false⟩⟩

/-- Settles O28: the two cases of the advance, `position_advanceCursors`, and the end-of-scan reset at `N`. -/
theorem cursorsAdvanceLexicographically : Obligations.CursorsAdvanceLexicographically := by
  unfold Obligations.CursorsAdvanceLexicographically
  intro s
  refine ⟨advanceCursors_of_last, advanceCursors_of_ne_last, position_advanceCursors s,
    fun hm => (advanceCursors_mcount_eq_modules_iff hm).mp, fun hm hp => ?_⟩
  have hend : (advanceCursors s).mcount = s.cfg.modules :=
    (advanceCursors_mcount_eq_modules_iff (by omega)).mpr ⟨hm, hp⟩
  rw [finishPhase_of_eq hend]
  exact ⟨endOfScanReset_mcount _, endOfScanReset_pcount _⟩

end Sys2Proof.Machine
end

section
/-! SUPPORT. How `PHASE` moves (R119): within a scan on schedule, and in one step of the system. -/

namespace Sys2Proof.Machine

/-! ### A phase step on schedule -/

/-- A phase value that samples runs the sampling phase (R74, R75). -/
theorem phaseStep_of_sampling {s : State} (hp : s.phase = 5 ∨ (13 ≤ s.phase ∧ s.phase % 2 = 1)) :
    phaseStep s = samplePhase s := by
  obtain ⟨h, -⟩ | ⟨h, -⟩ | ⟨h, -⟩ | ⟨-, e⟩ | ⟨h, -⟩ | ⟨h, -⟩ | ⟨h, -⟩ := phaseStep_shapes s
  case inr.inr.inr.inl => exact e
  all_goals omega

/-- On schedule the sampling event reaches `MCOUNT = N` in the last phase of the scan and in no other (R36 (b)). -/
theorem sample_mcount_eq_modules_iff {s : State} (hs : scheduled s = true)
    (hp : s.phase = 5 ∨ (13 ≤ s.phase ∧ s.phase % 2 = 1)) :
    (sample s).mcount = s.cfg.modules ↔ s.phase = 16 * s.cfg.modules + 9 := by
  obtain ⟨hl, -, hle, hpos⟩ := (scheduled_iff s).mp hs
  have hN := modules_pos hl
  rw [← position_div (sample s), position_sample, hpos]
  obtain h5 | ⟨hge, hodd⟩ := hp
  · rw [h5, show scheduledPosition 5 = 0 from rfl]
    omega
  · rw [scheduledPosition, if_neg (by omega), if_neg (by omega)]
    omega

/-- On schedule a phase step adds 1 to `PHASE` or, in the last phase of the scan, returns it to 0 (R119). -/
theorem phaseStep_phase {s t : State} (hs : scheduled s = true) (h : phaseStep s = .next t) :
    t.phase = if s.phase = 16 * s.cfg.modules + 9 then 0 else s.phase + 1 := by
  have hm := mcount_lt_of_scheduled hs
  by_cases hp : s.phase = 5 ∨ (13 ≤ s.phase ∧ s.phase % 2 = 1)
  · rw [phaseStep_of_sampling hp, samplePhase_of_lt hm] at h
    cases h
    by_cases hlast : s.phase = 16 * s.cfg.modules + 9
    · rw [finishPhase_of_eq ((sample_mcount_eq_modules_iff hs hp).mpr hlast), if_pos hlast, endOfScanReset_phase]
    · rw [finishPhase_of_ne (mt (sample_mcount_eq_modules_iff hs hp).mp hlast), if_neg hlast, incrementPhase_phase,
        sample_phase]
  · rw [if_neg (by omega)]
    obtain rfl | ⟨l, v, rfl⟩ | ⟨hp', -⟩ := phaseStep_cases h
    · rw [finishPhase_of_ne hm.ne, incrementPhase_phase]
    · rw [finishPhase_of_ne (s := gpioWrite l v s) hm.ne, incrementPhase_phase, gpioWrite_phase]
    · exact absurd hp' hp

/-! ### One step of the system -/

/-- A step that answers a next state is a due `STEP`, with one phase step on the state that has its word taken and its
time noted and recorded, or it is none and leaves `PHASE` (R93, R119). -/
theorem step_due_or_phase_kept {s t : State} (h : step s = .next t) :
    (∃ now, fetch s = some (.step now, takeCommand s) ∧ due s now = true ∧
        phaseStep (recordTime now (noteTime now (takeCommand s))) = .next t) ∨
      ((¬∃ now s', fetch s = some (.step now, s') ∧ due s now = true) ∧ t.phase = s.phase) := by
  obtain ⟨hf, rfl⟩ | ⟨arg, hf, rfl⟩ | ⟨arg, hf, rfl⟩ | ⟨now, hf, he⟩ | ⟨vpin, hf, rfl⟩ := step_cases h
  case inr.inr.inr.inl =>
    obtain ⟨-, -, ⟨hd, rfl⟩ | ⟨hd, hphase⟩⟩ := execStep_cases he
    · exact .inr ⟨by simpa [hf] using hd, rfl⟩
    · exact .inl ⟨now, hf, hd, hphase⟩
  all_goals exact .inr ⟨by simp [hf], by simp⟩

/-- Settles O41: a due `STEP` by `phaseStep_phase`; the bound by the schedule before the step. -/
theorem phaseAdvancesByOneOrReturnsToZero : Obligations.PhaseAdvancesByOneOrReturnsToZero := by
  unfold Obligations.PhaseAdvancesByOneOrReturnsToZero
  intro s t hs h
  obtain ⟨-, -, hle, -⟩ := (scheduled_iff s).mp hs
  obtain ⟨now, hf, hd, hphase⟩ | ⟨hnot, hkept⟩ := step_due_or_phase_kept h
  · have hnext : t.phase = if s.phase = 16 * s.cfg.modules + 9 then 0 else s.phase + 1 :=
      phaseStep_phase (s := recordTime now (noteTime now (takeCommand s))) (by simpa using hs) hphase
    exact ⟨fun _ => hnext, fun hnot => absurd ⟨now, _, hf, hd⟩ hnot, by split at hnext <;> omega⟩
  · exact ⟨fun hdue => absurd hdue hnot, fun _ => hkept, by omega⟩

end Sys2Proof.Machine
end

section
/-! SUPPORT. The pinbuffer mapper (`spec/43_pin_mapper.md`): what `READ` returns, and what the returned bit depends on. -/

namespace Sys2Proof.Machine

/-- `READ` appends the level of its pin to the results and changes nothing else (R130, R133). -/
theorem exec_read (vpin : Int) (s : State) :
    exec (.read vpin) s = .next { s with results := s.results ++ [BitVec.ofBool (readPin s vpin)] } := rfl

/-- An offset below `PIN_COUNT` lies in one of the `N` modules (R7, R132). -/
theorem div_lt_modules {c : Config} {a : Nat} (h : a < c.pinCount) : a / 8 < c.modules := by
  obtain ⟨hle, -⟩ := modules_bounds c
  omega

/-- The level of a pin is a function of `BUF`, `FIRST_VPIN` and `PIN_COUNT` (R133). -/
theorem readPin_congr {s₁ s₂ : State} (hbuf : s₁.buf = s₂.buf) (hfirst : s₁.cfg.firstVpin = s₂.cfg.firstVpin)
    (hcount : s₁.cfg.pinCount = s₂.cfg.pinCount) (vpin : Int) : readPin s₁ vpin = readPin s₂ vpin := by
  by_cases h : s₁.cfg.firstVpin ≤ vpin ∧ vpin < s₁.cfg.firstVpin + s₁.cfg.pinCount
  · obtain ⟨h₁, h₂⟩ := h
    rw [readPin_of_served h₁ h₂, readPin_of_served (by omega) (by omega), hbuf, hfirst]
  · rw [readPin_of_unserved (by omega), readPin_of_unserved (by omega)]

/-- Settles O7: `exec_read` with the bit from `readPin_of_served` or `readPin_of_unserved`. -/
theorem readReturnsTheServedBitElseZero : Obligations.ReadReturnsTheServedBitElseZero := by
  unfold Obligations.ReadReturnsTheServedBitElseZero
  refine fun vpin s => ⟨fun ⟨h₁, h₂⟩ => ⟨div_lt_modules (by omega), ?_⟩, fun h => ?_⟩
  · rw [exec_read, readPin_of_served h₁ h₂]
    rfl
  · rw [exec_read, readPin_of_unserved h]
    rfl

/-- Settles O8: `exec_read` in both states, with the one bit of `readPin_congr`. -/
theorem readIsPureAndSeesOnlyTheBuffer : Obligations.ReadIsPureAndSeesOnlyTheBuffer := by
  unfold Obligations.ReadIsPureAndSeesOnlyTheBuffer
  intro vpin s₁ s₂ hbuf hfirst hcount
  refine ⟨BitVec.ofBool (readPin s₁ vpin), exec_read vpin s₁, ?_⟩
  rw [readPin_congr hbuf hfirst hcount]
  exact exec_read vpin s₂

end Sys2Proof.Machine
end

section
/-! SUPPORT. The decoders and the encoder undo each other (R70 to R75), and a step performs the host operation whose word
stands at the head of the queue. -/

namespace Sys2Proof

/-! ### The encoder's words, decoded -/

theorem decodeWord_hostCode (op : BitVec 2) (arg : Arg) :
    decodeWord (hostCode op arg).width (hostCode op arg).value = .ok (decodeHost (hostWord op arg)) := by
  unfold decodeWord
  rw [if_pos (.inl rfl), if_pos (hostCode_lt op arg), hostCode_value]

theorem decodeWord_phaseCode {p : Nat} (h : p < 2 ^ 32) :
    decodeWord (phaseCode p).width (phaseCode p).value = .ok (decodePhase p) := by
  unfold decodeWord
  rw [if_neg (by simp [phaseCode])]
  exact (if_pos rfl).trans (if_pos h)

theorem decodeHost_hnop (arg : Arg) : decodeHost (hostWord 0b00#2 arg) = .hnop arg := by simp [decodeHost]

theorem decodeHost_init (arg : Arg) : decodeHost (hostWord 0b01#2 arg) = .init arg := by simp [decodeHost]

theorem decodeHost_step (now : Time) : decodeHost (hostWord 0b10#2 now) = .step now := by simp [decodeHost]

theorem decodeHost_read (arg : Arg) : decodeHost (hostWord 0b11#2 arg) = .read arg.toNat := by simp [decodeHost]

/-- The operand field keeps a `vpin` in its range (R73). -/
theorem ofInt_toNat_of_wellFormed {vpin : Int} (h : (Instr.read vpin).wellFormed = true) :
    ((BitVec.ofInt 32 vpin).toNat : Int) = vpin := by
  simp only [Instr.wellFormed, Bool.and_eq_true, decide_eq_true_eq] at h
  rw [BitVec.toNat_ofInt]
  omega

theorem decodeWord_encode {i : Instr} (h : i.wellFormed = true) :
    decodeWord (encode i).width (encode i).value = .ok i := by
  cases i with
  | hnop arg => rw [encode, decodeWord_hostCode, decodeHost_hnop]
  | init arg => rw [encode, decodeWord_hostCode, decodeHost_init]
  | step now => rw [encode, decodeWord_hostCode, decodeHost_step]
  | read vpin => rw [encode, decodeWord_hostCode, decodeHost_read, ofInt_toNat_of_wellFormed h]
  | idle0 | idle1 | idle2 | loadStrobe | firstClock | firstSample | hold6 | hold7 | hold8 | resetPulseStart
  | resetPulseEnd | loadRelease | shiftClock | shiftSample => exact decodeWord_phaseCode (by decide)

theorem decodeTableWord_eq_some {nbits w : Nat} {i : Instr} (h : decodeWord nbits w = .ok i) :
    decodeTableWord nbits w = some i := by
  simp only [decodeTableWord, h]

/-- Settles O45: `decodeWord_encode`, and the second decoder from the first. -/
theorem decodeOfEncodeGivesTheInstruction : Obligations.DecodeOfEncodeGivesTheInstruction := by
  unfold Obligations.DecodeOfEncodeGivesTheInstruction
  exact fun i h => ⟨decodeWord_encode h, decodeTableWord_eq_some (decodeWord_encode h)⟩

/-! ### The decoded word, encoded -/

/-- The two fields make up the whole command word (R70). -/
theorem hostWord_hostOp_hostArg (w : HostWord) : hostWord (hostOp w) (hostArg w) = w := by
  refine BitVec.eq_of_toNat_eq ?_
  rw [hostWord_toNat, hostOp, hostArg, BitVec.extractLsb'_toNat, BitVec.extractLsb'_toNat, Nat.shiftRight_eq_div_pow,
    Nat.shiftRight_zero]
  omega

/-- The host operation at each value of `op` (R71). -/
theorem decodeHost_by_op (w : HostWord) :
    (hostOp w = 0b00#2 ∧ decodeHost w = .hnop (hostArg w)) ∨ (hostOp w = 0b01#2 ∧ decodeHost w = .init (hostArg w)) ∨
      (hostOp w = 0b10#2 ∧ decodeHost w = .step (hostArg w)) ∨
      (hostOp w = 0b11#2 ∧ decodeHost w = .read (hostArg w).toNat) := by
  have hop : ∀ o : BitVec 2, o = 0b00#2 ∨ o = 0b01#2 ∨ o = 0b10#2 ∨ o = 0b11#2 := by decide
  obtain h | h | h | h := hop (hostOp w)
  · exact .inl ⟨h, by simp [decodeHost, h]⟩
  · exact .inr (.inl ⟨h, by simp [decodeHost, h]⟩)
  · exact .inr (.inr (.inl ⟨h, by simp [decodeHost, h]⟩))
  · exact .inr (.inr (.inr ⟨h, by simp [decodeHost, h]⟩))

theorem decodeHost_wellFormed (w : HostWord) : (decodeHost w).wellFormed = true := by
  have hlt := (hostArg w).isLt
  obtain ⟨-, h⟩ | ⟨-, h⟩ | ⟨-, h⟩ | ⟨-, h⟩ := decodeHost_by_op w <;> rw [h]
  case inr.inr.inr =>
    simp only [Instr.wellFormed, Bool.and_eq_true, decide_eq_true_eq]
    omega
  all_goals rfl

theorem encode_decodeHost (w : HostWord) : encode (decodeHost w) = hostCode (hostOp w) (hostArg w) := by
  obtain ⟨hop, h⟩ | ⟨hop, h⟩ | ⟨hop, h⟩ | ⟨hop, h⟩ := decodeHost_by_op w <;> rw [h, hop, encode]
  rw [BitVec.ofInt_natCast, BitVec.ofNat_toNat, BitVec.setWidth_eq]

/-- Settles O46: `encode_decodeHost`, with the word put together from its fields. -/
theorem encodeOfDecodedCommandWordGivesTheWord : Obligations.EncodeOfDecodedCommandWordGivesTheWord := by
  unfold Obligations.EncodeOfDecodedCommandWordGivesTheWord
  intro w
  refine ⟨decodeHost_wellFormed w, ?_⟩
  rw [encode_decodeHost, hostCode, hostWord_hostOp_hostArg]

/-- Settles O47: the eight words by evaluation. -/
theorem writtenWordsDecodeAsTheSpecSays : Obligations.WrittenWordsDecodeAsTheSpecSays := by
  unfold Obligations.WrittenWordsDecodeAsTheSpecSays
  decide

/-! ### The word at the head of the queue -/

/-- A host operation's word in the queue decodes to it: the table decoder reads words of 34 bits with `decodeHost`. -/
theorem decodeHost_encode {i : Instr} (h : i.wellFormed = true) (hw : (encode i).width = 34) :
    decodeHost (BitVec.ofNat 34 (encode i).value) = i := by
  have hd := decodeWord_encode h
  rw [hw, decodeWord, if_pos (.inl rfl)] at hd
  split at hd
  · exact Except.ok.inj hd
  · cases hd

/-- Settles O48: `step_command` with the word decoded by `decodeHost_encode`; `step_idle` on an empty queue. -/
theorem stepRunsTheDecodedHostOperation : Obligations.StepRunsTheDecodedHostOperation := by
  unfold Obligations.StepRunsTheDecodedHostOperation
  refine ⟨fun i s rest hwf hw hc => ?_, fun s hc => Machine.step_idle hc⟩
  rw [Machine.step_command hc, decodeHost_encode hwf hw, Machine.takeCommand, hc, List.tail_cons]

end Sys2Proof
end

section
/-! SUPPORT. The phase sequencer (`spec/42_phase_sequencer.md`) at both ends of the end-of-scan test: the phases before
`MCOUNT = N`, the reset at it (R118), and the sampling phases beyond it (R123). -/

namespace Sys2Proof.Machine

/-- The six phases without an action are the one quiet phase (R101 to R103, R107 to R109). -/
theorem exec_quiet {i : Instr}
    (hi : i ∈ [Instr.idle0, Instr.idle1, Instr.idle2, Instr.hold6, Instr.hold7, Instr.hold8]) (s : State) :
    exec i s = quietPhase s := by
  obtain rfl | rfl | rfl | rfl | rfl | rfl : i = .idle0 ∨ i = .idle1 ∨ i = .idle2 ∨ i = .hold6 ∨ i = .hold7 ∨
    i = .hold8 := by simpa using hi
  all_goals rfl

/-- Before the end of a scan a quiet phase is the increment of `PHASE` (R100). -/
theorem quietPhase_of_ne {s : State} (h : s.mcount ≠ s.cfg.modules) : quietPhase s = .next (incrementPhase s) :=
  congrArg Host.Outcome.next (finishPhase_of_ne h)

/-- Settles O20: each of the six is `quietPhase`. -/
theorem idleAndHoldOnlyAdvanceThePhase : Obligations.IdleAndHoldOnlyAdvanceThePhase := by
  unfold Obligations.IdleAndHoldOnlyAdvanceThePhase
  exact fun s h i hi => (exec_quiet hi s).trans (quietPhase_of_ne h)

/-- Settles O22: both are `writePhase` on `CLOCK`. -/
theorem clockPhasesRaiseClock : Obligations.ClockPhasesRaiseClock := by
  unfold Obligations.ClockPhasesRaiseClock
  intro s h i hi
  obtain rfl | rfl : i = .firstClock ∨ i = .shiftClock := by simpa using hi
  · exact writePhase_of_ne h .clock true
  · exact writePhase_of_ne h .clock true

/-- Settles O23: the two are `writePhase` on `RESET`. -/
theorem resetPulsePhasesWriteReset : Obligations.ResetPulsePhasesWriteReset := by
  unfold Obligations.ResetPulsePhasesWriteReset
  exact fun s h => ⟨writePhase_of_ne h .reset true, writePhase_of_ne h .reset false⟩

/-- The whole effect of the common tail at `MCOUNT = N`, with its three events in order (R118). -/
theorem finishPhase_at_end {s : State} (h : s.mcount = s.cfg.modules) :
    finishPhase s = { s with
      phase := 0, mcount := 0, pcount := 0, outClock := false, outLoad := false, outReset := false
      trace := s.trace ++ [.write .load false, .write .clock false, .write .reset false] } := by
  rw [finishPhase_of_eq h, List.append_cons, List.append_cons]
  rfl

/-- At `MCOUNT = N` a phase that writes a line is the write and the end-of-scan reset (R118). -/
theorem writePhase_at_end {s : State} (h : s.mcount = s.cfg.modules) (l : OutLine) (v : Level) :
    writePhase l v s = .next { s with
      phase := 0, mcount := 0, pcount := 0, outClock := false, outLoad := false, outReset := false
      trace := s.trace ++ [.write l v] ++ [.write .load false, .write .clock false, .write .reset false] } :=
  congrArg Host.Outcome.next (finishPhase_at_end (s := gpioWrite l v s) h)

/-- Settles O26: `finishPhase_at_end` after nothing or after the phase's own write. -/
theorem endOfScanResetIsUnconditional : Obligations.EndOfScanResetIsUnconditional := by
  unfold Obligations.EndOfScanResetIsUnconditional
  intro s h
  refine ⟨_, .refl _, fun i hi => ?_, fun iw hi => ?_⟩
  · exact (exec_quiet hi s).trans (congrArg Host.Outcome.next (finishPhase_at_end h))
  · simp only [List.mem_cons, List.not_mem_nil, or_false] at hi
    obtain rfl | rfl | rfl | rfl | rfl | rfl := hi
    all_goals exact writePhase_at_end h _ _

/-- Settles O25: `sample_eq` with the bit of `bufBit_memWrite_position`, then `finishPhase_at_end`. -/
theorem lastSamplingPhaseEndsTheScan : Obligations.LastSamplingPhaseEndsTheScan := by
  unfold Obligations.LastSamplingPhaseEndsTheScan
  intro s hb hm hp i hi
  have hbit := bufBit_memWrite_position (s := s) (by omega) (dataAnswer (gpioWrite .clock false s))
  have hend : (sample s).mcount = s.cfg.modules := by simp [hp, hm]
  refine ⟨dataAnswer (gpioWrite .clock false s), (sample s).buf, _,
    fun c rest h => dataAnswer_cons (by simpa using h), by simpa using hb, fun m p => ?_, .refl _, ?_⟩
  · rw [sample_buf, hbit, hp]
    rfl
  · rw [exec_sampling hi, samplePhase_of_lt (by omega), finishPhase_at_end hend, sample_eq]

/-- Settles O27: `samplePhase_cases` out of range. -/
theorem samplingOutOfRangeIsRefused : Obligations.SamplingOutOfRangeIsRefused := by
  unfold Obligations.SamplingOutOfRangeIsRefused
  intro s hm i hi
  obtain ⟨hlt, -⟩ | ⟨-, h⟩ := samplePhase_cases s
  · omega
  · exact (exec_sampling hi s).trans h

end Sys2Proof.Machine
end

section
/-! SUPPORT. The phase step on schedule (R36, R100): it completes, keeps the schedule and the waveform, and what it makes of
each output, of the trace and of the buffer. Every part is read off `PhaseEffect`, the four things it can do. -/

namespace Sys2Proof.Machine

/-! ### What a phase step does on schedule -/

/-- Phase `p` writes level `v` to line `l` (R104, R105, R110 to R113). -/
def writesLine (l : OutLine) (v : Level) (p : Nat) : Prop :=
  match l, v with
  | .load, true => p = 3
  | .load, false => p = 11
  | .clock, true => p = 4 ∨ (12 ≤ p ∧ p % 2 = 0)
  | .clock, false => False
  | .reset, true => p = 9
  | .reset, false => p = 10

/-- The phases that write a line are neither quiet nor sampling. -/
theorem phase_of_writesLine {l : OutLine} {v : Level} {p : Nat} (h : writesLine l v p) :
    p = 3 ∨ p = 4 ∨ p = 9 ∨ p = 10 ∨ p = 11 ∨ (12 ≤ p ∧ p % 2 = 0) := by
  cases l <;> cases v <;> simp only [writesLine] at h <;> omega

/-- `t` is what the phase step makes of `s` on schedule: advance; write one line and advance; sample and advance; or, in
the last phase of the scan, sample and reset (R100, R118). -/
inductive PhaseEffect (s : State) : State → Prop
  | quiet (h : s.phase ≤ 2 ∨ (6 ≤ s.phase ∧ s.phase ≤ 8)) : PhaseEffect s (incrementPhase s)
  | write (l : OutLine) (v : Level) (h : writesLine l v s.phase) : PhaseEffect s (incrementPhase (gpioWrite l v s))
  | sample (h : s.phase = 5 ∨ (13 ≤ s.phase ∧ s.phase % 2 = 1)) (hlast : s.phase ≠ 16 * s.cfg.modules + 9) :
      PhaseEffect s (incrementPhase (sample s))
  | last (h : 13 ≤ s.phase ∧ s.phase % 2 = 1) (hlast : s.phase = 16 * s.cfg.modules + 9) :
      PhaseEffect s (endOfScanReset (incrementPhase (Machine.sample s)))

theorem phaseStep_completes {s : State} (hs : scheduled s = true) : ∃ t, phaseStep s = .next t ∧ PhaseEffect s t := by
  have hm := mcount_lt_of_scheduled hs
  have hN := modules_pos ((scheduled_iff s).mp hs).1
  have write : ∀ l v, writesLine l v s.phase → phaseStep s = writePhase l v s →
      ∃ t, phaseStep s = .next t ∧ PhaseEffect s t := fun l v h e =>
    ⟨_, e.trans (writePhase_of_ne hm.ne l v), .write l v h⟩
  obtain ⟨h, e⟩ | ⟨h, e⟩ | ⟨h, e⟩ | ⟨h, e⟩ | ⟨h, e⟩ | ⟨h, e⟩ | ⟨h, e⟩ := phaseStep_shapes s
  · exact ⟨_, e.trans (quietPhase_of_ne hm.ne), .quiet h⟩
  · exact write .load true h e
  · exact write .clock true h e
  · rw [e, samplePhase_of_lt hm]
    by_cases hlast : s.phase = 16 * s.cfg.modules + 9
    · rw [finishPhase_of_eq ((sample_mcount_eq_modules_iff hs h).mpr hlast)]
      exact ⟨_, rfl, .last (by omega) hlast⟩
    · rw [finishPhase_of_ne (mt (sample_mcount_eq_modules_iff hs h).mp hlast)]
      exact ⟨_, rfl, .sample h hlast⟩
  · exact write .reset true h e
  · exact write .reset false h e
  · exact write .load false h e

theorem phaseStep_effect {s t : State} (hs : scheduled s = true) (h : phaseStep s = .next t) : PhaseEffect s t := by
  obtain ⟨u, hu, he⟩ := phaseStep_completes hs
  obtain rfl : u = t := by simpa [h] using hu.symm
  exact he

/-! ### The counters, the outputs and the trace -/

section
variable {s t : State} (hs : scheduled s = true) (hn : phaseStep s = .next t)
include hs hn

/-- The cursors are where the new phase says (R36 (b)). -/
theorem phaseStep_position : position t = scheduledPosition t.phase := by
  obtain ⟨-, -, -, hpos⟩ := (scheduled_iff s).mp hs
  cases phaseStep_effect hs hn with
  | quiet h => exact hpos.trans (scheduledPosition_succ_of_quiet (by omega) (by omega)).symm
  | write l v h =>
    have := phase_of_writesLine h
    exact hpos.trans (scheduledPosition_succ_of_quiet (by omega) (by omega)).symm
  | sample h hlast =>
    calc position (sample s) = scheduledPosition s.phase + 1 := by rw [position_sample, hpos]
      _ = scheduledPosition (s.phase + 1) := (scheduledPosition_succ_of_sampling h).symm
  | last h hlast => rfl

theorem phaseStep_scheduled : scheduled t = true := by
  obtain ⟨hl, hb, hle, -⟩ := (scheduled_iff s).mp hs
  obtain ⟨-, hcfg, -, -, -, -, -, hlen, -⟩ := phaseStep_frame hn
  refine (scheduled_iff t).mpr ⟨hcfg ▸ hl, by rw [hlen, hb, hcfg], ?_, phaseStep_position hs hn⟩
  rw [phaseStep_phase hs hn, hcfg]
  split <;> omega

/-- The level of each output after the step (R104, R105, R110 to R115, R118). -/
theorem phaseStep_outputs :
    t.outLoad = (if s.phase = 3 then true
      else if s.phase = 11 ∨ s.phase = 16 * s.cfg.modules + 9 then false else s.outLoad) ∧
    t.outClock = (if s.phase = 4 ∨ (12 ≤ s.phase ∧ s.phase % 2 = 0) then true
      else if s.phase = 5 ∨ (13 ≤ s.phase ∧ s.phase % 2 = 1) then false else s.outClock) ∧
    t.outReset = (if s.phase = 9 then true
      else if s.phase = 10 ∨ s.phase = 16 * s.cfg.modules + 9 then false else s.outReset) := by
  have hN := modules_pos ((scheduled_iff s).mp hs).1
  cases phaseStep_effect hs hn with
  | quiet h => refine ⟨?_, ?_, ?_⟩ <;> rw [if_neg (by omega), if_neg (by omega)] <;> rfl
  | write l v h => -- the line takes its level; the other two are written in other phases
    cases l <;> cases v <;> simp only [writesLine] at h <;>
      grind [incrementPhase_outLoad, incrementPhase_outClock, incrementPhase_outReset, gpioWrite_outLoad,
        gpioWrite_outClock, gpioWrite_outReset]
  | sample h hlast =>
    refine ⟨?_, ?_, ?_⟩
    · rw [if_neg (by omega), if_neg (by omega), incrementPhase_outLoad, sample_outLoad]
    · rw [if_neg (by omega), if_pos h, incrementPhase_outClock, sample_outClock]
    · rw [if_neg (by omega), if_neg (by omega), incrementPhase_outReset, sample_outReset]
  | last h hlast =>
    refine ⟨?_, ?_, ?_⟩
    · rw [if_neg (by omega), if_pos (.inr hlast), endOfScanReset_outLoad]
    · rw [if_neg (by omega), if_pos (.inr h), endOfScanReset_outClock]
    · rw [if_neg (by omega), if_pos (.inr hlast), endOfScanReset_outReset]

/-- The waveform passes from one phase to the next (R36 (c) to (e), R121). -/
theorem phaseStep_waveform (hw : waveform s = true) : waveform t = true := by
  obtain ⟨hload, hclock, hreset⟩ := (waveform_iff s).mp hw
  obtain ⟨hl, -, hle, -⟩ := (scheduled_iff s).mp hs
  have hN := modules_pos hl
  obtain ⟨hload', hclock', hreset'⟩ := phaseStep_outputs hs hn
  rw [waveform_iff, hload', hclock', hreset', phaseStep_phase hs hn]
  grind

/-- The events the step appends, none, a write, a write and a read, or these and three writes (R122): how many, and the one
read of a sampling phase. -/
theorem phaseStep_events : ∃ events, t.trace = s.trace ++ events ∧
    events.length =
      (if s.phase ≤ 2 ∨ (6 ≤ s.phase ∧ s.phase ≤ 8) then 0
        else if s.phase = 16 * s.cfg.modules + 9 then 5
        else if s.phase = 5 ∨ (13 ≤ s.phase ∧ s.phase % 2 = 1) then 2 else 1) ∧
    events.filter isDataRead =
      (if s.phase = 5 ∨ (13 ≤ s.phase ∧ s.phase % 2 = 1) then [.read (dataAnswer (gpioWrite .clock false s))] else []) := by
  have hN := modules_pos ((scheduled_iff s).mp hs).1
  cases phaseStep_effect hs hn with
  | quiet h => exact ⟨[], by simp, by rw [if_pos h, List.length_nil], by rw [if_neg (by omega)]; rfl⟩
  | write l v h =>
    have := phase_of_writesLine h
    refine ⟨[.write l v], rfl, ?_, by rw [if_neg (by omega)]; rfl⟩
    rw [if_neg (by omega), if_neg (by omega), if_neg (by omega), List.length_singleton]
  | sample h hlast =>
    refine ⟨_, by rw [incrementPhase_trace, sample_trace, List.append_assoc], ?_, by rw [if_pos h]; rfl⟩
    rw [if_neg (by omega), if_neg hlast, if_pos h]
    rfl
  | last h hlast =>
    refine ⟨_, by simp only [endOfScanReset_trace, incrementPhase_trace, sample_trace, List.append_assoc]; rfl, ?_,
      by rw [if_pos (.inr h)]; rfl⟩
    rw [if_neg (by omega), if_pos hlast]
    rfl

end

/-! ### The buffer and the answers -/

/-- On schedule the cursors address a module of the buffer (R35). -/
theorem position_in_buffer {s : State} (hs : scheduled s = true) : position s / 8 < s.buf.length := by
  obtain ⟨-, hb, -, -⟩ := (scheduled_iff s).mp hs
  rw [position_div, hb]
  exact mcount_lt_of_scheduled hs

/-- A sampling phase stores the level read at the cursors and takes the answer (R115, R116). -/
theorem phaseStep_stores {s t : State} (hn : phaseStep s = .next t)
    (hp : s.phase = 5 ∨ (13 ≤ s.phase ∧ s.phase % 2 = 1)) :
    t.buf = memWrite s.buf (position s) (dataAnswer (gpioWrite .clock false s)) ∧ t.dataIn = s.dataIn.tail := by
  rw [phaseStep_of_sampling hp] at hn
  obtain ⟨-, e⟩ | ⟨-, e⟩ := samplePhase_cases s <;> cases e.symm.trans hn
  exact ⟨by simp, by simp⟩

/-- Any other phase keeps the buffer and the answers (R57). -/
theorem phaseStep_keeps_buffer {s t : State} (hn : phaseStep s = .next t)
    (hp : ¬(s.phase = 5 ∨ (13 ≤ s.phase ∧ s.phase % 2 = 1))) : t.buf = s.buf ∧ t.dataIn = s.dataIn := by
  obtain rfl | ⟨l, v, rfl⟩ | ⟨hp', -⟩ := phaseStep_cases hn
  · simp
  · simp
  · exact absurd hp' hp

/-- The phases that sample are those of the two sampling micro-operations (R74). -/
theorem decodePhase_sampling_iff (p : Nat) :
    (decodePhase p = .firstSample ∨ decodePhase p = .shiftSample) ↔ p = 5 ∨ (13 ≤ p ∧ p % 2 = 1) := by
  rcases Nat.lt_or_ge p 12 with h | h
  · interval_cases p <;> decide
  · rcases Nat.mod_two_eq_zero_or_one p with he | ho
    · simp only [decodePhase_of_even h he, reduceCtorEq, false_or, false_iff]
      omega
    · simp only [decodePhase_of_odd h ho, or_true, true_iff]
      omega

/-- Settles O42: `phaseStep_completes` and `phaseStep_events`. -/
theorem eventsOfAPhaseStepAreBounded : Obligations.EventsOfAPhaseStepAreBounded := by
  unfold Obligations.EventsOfAPhaseStepAreBounded
  intro s hs
  obtain ⟨t, hn, -⟩ := phaseStep_completes hs
  obtain ⟨events, htrace, hlen, hreads⟩ := phaseStep_events hs hn
  refine ⟨t, events, hn, htrace, hlen, ?_⟩
  rw [hreads]
  split <;> rfl

/-- Settles O15: the phase step from the state with the time noted and recorded, part by part: `phaseStep_outputs`,
`phaseStep_events`, `phaseStep_stores` or `phaseStep_keeps_buffer`, and `phaseStep_frame`. -/
theorem dueStepCompletesOnSchedule : Obligations.DueStepCompletesOnSchedule := by
  unfold Obligations.DueStepCompletesOnSchedule
  intro now s hs hi hm hd
  have hs' : scheduled (recordTime now (noteTime now s)) = true := by simpa using hs
  obtain ⟨t, hn, -⟩ := phaseStep_completes hs'
  obtain ⟨hlast, hcfg, hmodes, hinited, hcmds, hres, hprev, hlen, hbits⟩ := phaseStep_frame hn
  obtain ⟨hload, hclock, hreset⟩ := phaseStep_outputs hs' hn
  obtain ⟨events, htrace, -, hreads⟩ := phaseStep_events hs' hn
  have hphase := phaseStep_phase hs' hn
  refine ⟨t, dataAnswer (gpioWrite .clock false s), events, (execStep_due hi hm ((due_iff s now).mpr hd)).trans hn,
    hlast, hphase, phaseStep_position hs' hn, hload, hclock, hreset,
    fun c rest h => dataAnswer_cons (by simpa using h), htrace, fun hp => ?_, fun hp₁ hp₂ => ?_, hlen, fun a ha => ?_,
    hcfg, hmodes, hinited.trans hi, hcmds, hres, hprev⟩
  · have hp := (decodePhase_sampling_iff s.phase).mp hp
    obtain ⟨hbuf, hdata⟩ := phaseStep_stores hn hp
    refine ⟨?_, hdata, hreads.trans (if_pos hp)⟩
    rw [hbuf]
    exact memRead_memWrite_same _ _ _ (position_in_buffer hs)
  · have hp := mt (decodePhase_sampling_iff s.phase).mpr (not_or.mpr ⟨hp₁, hp₂⟩)
    obtain ⟨hbuf, hdata⟩ := phaseStep_keeps_buffer hn hp
    exact ⟨hbuf, hdata, hreads.trans (if_neg hp)⟩
  · by_contra hne
    exact ha (hbits a hne).1

end Sys2Proof.Machine
end

section
/-! SUPPORT. Construction (`spec/70_reset_and_hazards.md` sections 1 and 2) and the lifecycle family. -/

namespace Sys2Proof.Machine

/-! ### Construction -/

/-- Legal parameters pass every check (R174). -/
theorem construct_of_legal {c : Config} (h : c.legal = true) (bufInit : Nat → Byte) (lastInit : Time)
    (outInit : OutLine → Level) :
    State.construct c bufInit lastInit outInit = .next (State.constructed c bufInit lastInit outInit) := by
  simp only [Config.legal, Bool.and_eq_true, decide_eq_true_eq] at h
  obtain ⟨⟨⟨hcount, hrange⟩, hlines⟩, hinterval⟩ := h
  simp [State.construct, hrange, hlines, hinterval, hcount.ne']

/-- The bits of the buffer after construction (R37). -/
theorem bufBit_bufferAtReset {n m : Nat} (h : m < n) (bufInit : Nat → Byte) (p : Nat) :
    bufBit (bufferAtReset n bufInit) m p = (bufInit m).getLsbD p := by
  simp [bufBit, bufferAtReset, h]

/-- Settles O1: `construct_of_legal`, the buffer from `bufBit_bufferAtReset`. -/
theorem constructionGivesResetValues : Obligations.ConstructionGivesResetValues := by
  unfold Obligations.ConstructionGivesResetValues
  intro c bufInit lastInit outInit h
  refine ⟨_, construct_of_legal h bufInit lastInit outInit, rfl, by simp [State.constructed, bufferAtReset],
    fun m p hm => bufBit_bufferAtReset hm bufInit p, rfl, rfl, rfl, rfl, fun l => ?_, fun l => ?_, rfl, rfl, rfl⟩
  · cases l <;> rfl
  · cases l <;> rfl

/-- Settles O2: each check of the list, the earlier ones passed. -/
theorem illegalParametersAreRefusedByName : Obligations.IllegalParametersAreRefusedByName := by
  unfold Obligations.IllegalParametersAreRefusedByName
  intro c bufInit lastInit outInit
  refine ⟨fun h => if_pos h, fun h₁ h₂ => ?_, fun h₁ h₂ h₃ => ?_, fun h₁ h₂ h₃ h₄ => ?_⟩
  · have hrange : c.pinsInRange = false := decide_eq_false (by omega)
    simp [State.construct, h₁.ne', hrange]
  · have hrange : c.pinsInRange = true := decide_eq_true h₂
    have hlines : c.linesDistinct = false := decide_eq_false h₃
    simp [State.construct, h₁.ne', hrange, hlines]
  · have hrange : c.pinsInRange = true := decide_eq_true h₂
    have hlines : c.linesDistinct = true := decide_eq_true h₃
    have hinterval : c.intervalInRange = false := by
      rw [Config.intervalInRange, Bool.and_eq_false_iff, decide_eq_false_iff_not, decide_eq_false_iff_not]
      omega
    simp [State.construct, h₁.ne', hrange, hlines, hinterval]

/-- Settles O3: the two bounds of `modules_bounds` make `N` the ceiling. -/
theorem moduleCountIsTheCeiling : Obligations.ModuleCountIsTheCeiling := by
  unfold Obligations.ModuleCountIsTheCeiling
  intro c h
  obtain ⟨hle, hge⟩ := modules_bounds c
  have hpos := modules_pos h
  exact ⟨hpos, fun n => by omega, phases_eq hpos⟩

/-- A constructed state with legal parameters has its counters at the start of a scan. -/
theorem scheduled_constructed {c : Config} (h : c.legal = true) (bufInit : Nat → Byte) (lastInit : Time)
    (outInit : OutLine → Level) : scheduled (State.constructed c bufInit lastInit outInit) = true :=
  (scheduled_iff _).mpr ⟨h, by simp [State.constructed, bufferAtReset], Nat.zero_le _, rfl⟩

/-- Settles O30: `scheduled_constructed`, of `State.reset` with the default configuration. -/
theorem hardwareResetIsOnSchedule : Obligations.HardwareResetIsOnSchedule := by
  unfold Obligations.HardwareResetIsOnSchedule
  refine ⟨fun c bufInit lastInit outInit h => ⟨_, construct_of_legal h bufInit lastInit outInit, ?_⟩, ?_⟩
  · exact scheduled_constructed h bufInit lastInit outInit
  · exact scheduled_constructed (by decide) _ _ _

/-! ### The lifecycle family -/

/-- Settles O4: the meaning of `HNOP` is to do nothing. -/
theorem hnopChangesNothing : Obligations.HnopChangesNothing := by
  unfold Obligations.HnopChangesNothing
  exact fun arg s => rfl

theorem exec_init (arg : Arg) (s : State) : exec (.init arg) s = .next (initialise s) := rfl

/-- The whole effect of `INIT`, with its two groups of events in order (R141). -/
theorem initialise_eq (s : State) :
    initialise s = { s with
      dirData := .inputPullup, dirClock := .output, dirLoad := .output, dirReset := .output
      outClock := false, outLoad := false, outReset := false, inited := true
      trace := s.trace ++ [.cfg .data .inputPullup, .cfg .clock .output, .cfg .load .output, .cfg .reset .output] ++
        [.write .load false, .write .clock false, .write .reset false] } := by
  simp [initialise, driveOutputsLow, configureLines, gpioWrite, gpioCfg]

/-- Settles O5: `initialise_eq`, the groups of events in the model's own order. -/
theorem initConfiguresTheLinesAndDrivesThemLow : Obligations.InitConfiguresTheLinesAndDrivesThemLow := by
  unfold Obligations.InitConfiguresTheLinesAndDrivesThemLow
  exact fun arg s => ⟨_, _, .refl _, .refl _, congrArg Host.Outcome.next (initialise_eq s)⟩

theorem linesConfigured_iff (s : State) :
    linesConfigured s = true ↔
      s.dirData = .inputPullup ∧ s.dirClock = .output ∧ s.dirLoad = .output ∧ s.dirReset = .output := by
  simp only [linesConfigured, Bool.and_eq_true, decide_eq_true_eq, and_assoc]

theorem linesConfigured_initialise (s : State) : linesConfigured (initialise s) = true :=
  (linesConfigured_iff _).mpr (by simp)

/-- The three low outputs that `INIT` leaves are the levels of phase 0 (R36). -/
theorem waveform_initialise {s : State} (h : s.phase = 0) : waveform (initialise s) = true :=
  (waveform_iff _).mpr (by simp [h])

/-- Settles O33: `waveform_initialise` and `linesConfigured_initialise`. -/
theorem initStartsTheWaveform : Obligations.InitStartsTheWaveform := by
  unfold Obligations.InitStartsTheWaveform
  exact fun arg s h =>
    ⟨_, exec_init arg s, waveform_initialise h, linesConfigured_initialise s, initialise_inited s⟩

/-- Settles O6: at `PHASE = 0` the waveform has the outputs low already, so `initialise_eq` writes only old values. -/
theorem repeatedInitAtPhaseZeroIsHarmless : Obligations.RepeatedInitAtPhaseZeroIsHarmless := by
  unfold Obligations.RepeatedInitAtPhaseZeroIsHarmless
  intro arg s hp hw hl hi
  obtain ⟨hload, hclock, hreset⟩ : s.outLoad = false ∧ s.outClock = false ∧ s.outReset = false := by
    simpa [waveform_iff, hp] using hw
  obtain ⟨hd₁, hd₂, hd₃, hd₄⟩ := (linesConfigured_iff s).mp hl
  refine ⟨_, exec_init arg s, ?_⟩
  simp [initialise_eq, hload, hclock, hreset, hd₁, hd₂, hd₃, hd₄, hi]

end Sys2Proof.Machine
end

section
/-! SUPPORT. The tick scheduler (`spec/41_tick_scheduler.md`): when `STEP` is refused, when it does nothing, and when it is
the phase step. -/

namespace Sys2Proof.Machine

theorem exec_step (now : Time) (s : State) : exec (.step now) s = execStep now s := rfl

theorem due_eq_false_iff (s : State) (now : Time) :
    due s now = false ↔ (now.toNat + (2 ^ 32 - s.last.toNat)) % 2 ^ 32 < s.cfg.interval := by
  rw [← Bool.not_eq_true, due_iff, not_le]

/-- A due `STEP` within the contract is the micro-operation that `PHASE` selects, with its time recorded (R93, R100). -/
theorem exec_step_due {now : Time} {s : State} (hi : s.inited = true) (hm : timeMonotonic s.prevNow now = true)
    (hd : due s now = true) :
    exec (.step now) s = exec (decodePhase s.phase) { s with last := now, prevNow := some now } := by
  rw [exec_step, execStep_due hi hm hd, phaseStep_eq_exec]
  rfl

/-- Settles O11: the first test of `STEP`. -/
theorem stepBeforeInitIsRefused : Obligations.StepBeforeInitIsRefused := by
  unfold Obligations.StepBeforeInitIsRefused
  exact fun now s h => if_pos h

/-- A phase step is refused for nothing but a cursor out of range (R123). -/
theorem phaseStep_refused {s : State} {r : Refusal} (h : phaseStep s = .refused r) : r = .cursorOutOfRange := by
  obtain ⟨-, e⟩ | ⟨-, e⟩ | ⟨-, e⟩ | ⟨-, e⟩ | ⟨-, e⟩ | ⟨-, e⟩ | ⟨-, e⟩ := phaseStep_shapes s <;> rw [e] at h
  case inr.inr.inr.inl =>
    obtain ⟨-, e'⟩ | ⟨-, e'⟩ := samplePhase_cases s <;> rw [e'] at h <;> cases h
    rfl
  all_goals cases h

/-- After `INIT` the contract's reason is raised exactly by the contract's check (R97). -/
theorem execStep_timeNotMonotonic_iff {now : Time} {s : State} (hi : s.inited = true) :
    execStep now s = .refused .timeNotMonotonic ↔ timeMonotonic s.prevNow now = false := by
  refine ⟨fun h => Bool.eq_false_iff.mpr fun hm => ?_, fun h => by simp [execStep, hi, h]⟩
  cases hd : due s now with
  | false => rw [execStep_notDue hi hm hd] at h; cases h
  | true =>
    rw [execStep_due hi hm hd] at h
    cases phaseStep_refused h

/-- Settles O12: `execStep_timeNotMonotonic_iff`, with the check written over the naturals. -/
theorem timeRunningBackwardsIsRefused : Obligations.TimeRunningBackwardsIsRefused := by
  unfold Obligations.TimeRunningBackwardsIsRefused
  intro now s hi
  rw [exec_step, execStep_timeNotMonotonic_iff hi, ← Bool.not_eq_true, timeMonotonic_iff]
  simp only [not_forall, not_lt, exists_prop]

/-- Settles O13: `execStep_notDue`. -/
theorem stepThatIsNotDueChangesNothing : Obligations.StepThatIsNotDueChangesNothing := by
  unfold Obligations.StepThatIsNotDueChangesNothing
  exact fun now s hi hm hd => execStep_notDue hi hm ((due_eq_false_iff s now).mpr hd)

/-- Settles O14: `exec_step_due`. -/
theorem dueStepRunsTheSelectedMicroOperation : Obligations.DueStepRunsTheSelectedMicroOperation := by
  unfold Obligations.DueStepRunsTheSelectedMicroOperation
  exact fun now s hi hm hd => exec_step_due hi hm ((due_iff s now).mpr hd)

/-- Two readings of a clock that never wraps, less than `2^32` apart: the modular subtraction of their low 32 bits is the
true difference (R91, R96). -/
theorem modular_difference {before now : Nat} (hle : before ≤ now) (hlt : now - before < 2 ^ 32) :
    ((BitVec.ofNat 32 now).toNat + (2 ^ 32 - (BitVec.ofNat 32 before).toNat)) % 2 ^ 32 = now - before := by
  rw [BitVec.toNat_ofNat, BitVec.toNat_ofNat]
  omega

/-- Settles O16: `modular_difference` makes the gate and the contract's check speak of the true times. -/
theorem gateSeesTheTrueElapsedTime : Obligations.GateSeesTheTrueElapsedTime := by
  unfold Obligations.GateSeesTheTrueElapsedTime
  intro s then_ now hi hlast hle hlt hprev
  have hm : timeMonotonic s.prevNow (BitVec.ofNat 32 now) = true := by
    obtain hnone | ⟨before, hsome, hle', hlt'⟩ := hprev
    · rw [hnone]
      rfl
    · rw [hsome, timeMonotonic_iff]
      rintro _ ⟨⟩
      rw [modular_difference hle' (by omega)]
      exact hlt'
  split_ifs with hd
  · exact execStep_notDue hi hm ((due_eq_false_iff s _).mpr (by rwa [hlast, modular_difference hle hlt]))
  · exact exec_step_due hi hm ((due_iff s _).mpr (by rw [hlast, modular_difference hle hlt]; omega))

/-- The `STEP` before, over the naturals. -/
theorem lastFollowed_iff (s : State) :
    lastFollowed s = true ↔
      ∀ before, s.prevNow = some before → (before.toNat + (2 ^ 32 - s.last.toNat)) % 2 ^ 32 < s.cfg.interval := by
  unfold lastFollowed
  cases s.prevNow with
  | none => simp
  | some before => simp [BitVec.toNat_sub, Nat.add_comm]

theorem tickTime_toNat (s : State) : (tickTime s).toNat = (s.last.toNat + s.cfg.interval) % 2 ^ 32 := by
  simp [tickTime, BitVec.toNat_add]

/-- Settles O17: `TICK` comes `INTERVAL` after `LAST`, and so at most `INTERVAL < 2^31` after the `STEP` before. -/
theorem tickIsAlwaysDue : Obligations.TickIsAlwaysDue := by
  unfold Obligations.TickIsAlwaysDue
  intro s hl hi hint hf
  have hlast := s.last.isLt
  refine exec_step_due hi ((timeMonotonic_iff _ _).mpr fun before hb => ?_) ((due_iff _ _).mpr ?_)
  · have hbefore := (lastFollowed_iff s).mp hf before hb
    have hlt := before.isLt
    rw [tickTime_toNat]
    omega
  · rw [tickTime_toNat]
    omega

end Sys2Proof.Machine
end

section
/-! SUPPORT. One step of the system: the invariants of R35 and R36, what only certain steps change, and the steps that
complete. Each is read off `step_hardware_cases`, the three things a step can do to the hardware. -/

namespace Sys2Proof.Machine

/-- What one step can do to the hardware when it answers a next state: nothing, `INIT`, or the phase step of a due `STEP`.
All else it writes is the model's own: the queue, the results and the time before. -/
theorem step_hardware_cases {s t : State} (h : step s = .next t) :
    (∃ cs rs p, t = { s with commands := cs, results := rs, prevNow := p }) ∨
      (∃ arg, fetch s = some (.init arg, takeCommand s) ∧ t = initialise (takeCommand s)) ∨
      (∃ now, fetch s = some (.step now, takeCommand s) ∧ due s now = true ∧
        phaseStep (recordTime now (noteTime now (takeCommand s))) = .next t) := by
  obtain ⟨-, rfl⟩ | ⟨arg, -, rfl⟩ | ⟨arg, hf, rfl⟩ | ⟨now, hf, he⟩ | ⟨vpin, -, rfl⟩ := step_cases h
  · exact .inl ⟨_, _, _, rfl⟩
  · exact .inl ⟨_, _, _, rfl⟩
  · exact .inr (.inl ⟨arg, hf, rfl⟩)
  · obtain ⟨-, -, ⟨-, rfl⟩ | ⟨hd, hn⟩⟩ := execStep_cases he
    · exact .inl ⟨_, _, _, rfl⟩
    · exact .inr (.inr ⟨now, hf, hd, hn⟩)
  · exact .inl ⟨_, _, _, rfl⟩

/-! ### Invariants -/

theorem step_scheduled {s t : State} (hs : scheduled s = true) (h : step s = .next t) : scheduled t = true := by
  obtain ⟨cs, rs, p, rfl⟩ | ⟨arg, -, rfl⟩ | ⟨now, -, -, hn⟩ := step_hardware_cases h
  · exact hs
  · simpa using hs
  · exact phaseStep_scheduled (by simpa using hs) hn

/-- Settles O31: `step_scheduled`, which bounds `MCOUNT`. -/
theorem everyStepKeepsTheSchedule : Obligations.EveryStepKeepsTheSchedule := by
  unfold Obligations.EveryStepKeepsTheSchedule
  exact fun s t hs h => ⟨step_scheduled hs h, mcount_lt_of_scheduled (step_scheduled hs h)⟩

/-- Settles O32: `phaseStep_waveform` in a due `STEP`, `waveform_initialise` in an `INIT` at `PHASE = 0`. -/
theorem everyStepKeepsTheWaveform : Obligations.EveryStepKeepsTheWaveform := by
  unfold Obligations.EveryStepKeepsTheWaveform
  intro s t hs hi hw hinit h
  obtain ⟨cs, rs, p, rfl⟩ | ⟨arg, hf, rfl⟩ | ⟨now, -, -, hn⟩ := step_hardware_cases h
  · exact ⟨hi, hw⟩
  · exact ⟨initialise_inited _, waveform_initialise (hinit arg _ hf)⟩
  · obtain ⟨-, -, -, hinited, -⟩ := phaseStep_frame hn
    exact ⟨hinited.trans hi, phaseStep_waveform (by simpa using hs) hn (by simpa using hw)⟩

/-- Settles O34: `INIT` configures the lines again, no other step touches them. -/
theorem linesStayConfigured : Obligations.LinesStayConfigured := by
  unfold Obligations.LinesStayConfigured
  intro s t hl h
  obtain ⟨cs, rs, p, rfl⟩ | ⟨arg, -, rfl⟩ | ⟨now, -, -, hn⟩ := step_hardware_cases h
  · exact hl
  · exact linesConfigured_initialise _
  · obtain ⟨-, -, hmodes, -⟩ := phaseStep_frame hn
    obtain ⟨hd, hc, hld, hr⟩ := (linesConfigured_iff s).mp hl
    exact (linesConfigured_iff t).mpr
      ⟨(hmodes .data).trans hd, (hmodes .clock).trans hc, (hmodes .load).trans hld, (hmodes .reset).trans hr⟩

/-- Settles O18: construction leaves no `STEP` before; of a step, one that is not due came less than `INTERVAL` after `LAST`,
a due one is `LAST` itself, and no other touches either time. -/
theorem everyStepKeepsTheTimeBefore : Obligations.EveryStepKeepsTheTimeBefore := by
  unfold Obligations.EveryStepKeepsTheTimeBefore
  refine ⟨fun c bufInit lastInit outInit h => ⟨_, construct_of_legal h bufInit lastInit outInit, rfl⟩,
    fun s t hl hf h => ?_⟩
  obtain ⟨-, rfl⟩ | ⟨arg, -, rfl⟩ | ⟨arg, -, rfl⟩ | ⟨now, -, he⟩ | ⟨vpin, -, rfl⟩ := step_cases h
  · exact hf
  · exact hf
  · simpa [lastFollowed] using hf
  · rw [lastFollowed_iff]
    obtain ⟨-, -, ⟨hd, rfl⟩ | ⟨-, hn⟩⟩ := execStep_cases he
    · rintro _ ⟨⟩
      exact (due_eq_false_iff s now).mp hd
    · obtain ⟨hlast, hcfg, -, -, -, -, hprev, -⟩ := phaseStep_frame hn
      obtain ⟨-, -, -, hpos, -⟩ := (legal_iff s.cfg).mp hl
      rw [show t.last = now from hlast, show t.cfg = s.cfg from hcfg, show t.prevNow = some now from hprev]
      rintro _ ⟨⟩
      have := now.isLt
      omega
  · exact hf

/-! ### What only certain steps change -/

/-- Settles O37: the second and third case of `step_hardware_cases`. -/
theorem outputsChangeOnlyInTicksAndInit : Obligations.OutputsChangeOnlyInTicksAndInit := by
  unfold Obligations.OutputsChangeOnlyInTicksAndInit
  rintro s t h ⟨l, hl⟩
  obtain ⟨cs, rs, p, rfl⟩ | ⟨arg, hf, -⟩ | ⟨now, hf, hd, -⟩ := step_hardware_cases h
  · exact absurd rfl hl
  · exact .inl ⟨arg, _, hf⟩
  · exact .inr ⟨now, _, hf, hd⟩

/-- Settles O38: a bit changes only in a due `STEP`, where `phaseStep_frame` says which. -/
theorem bufferChangesOnlyBySampling : Obligations.BufferChangesOnlyBySampling := by
  unfold Obligations.BufferChangesOnlyBySampling
  intro s t h a ha
  obtain ⟨cs, rs, p, rfl⟩ | ⟨arg, -, rfl⟩ | ⟨now, hf, hd, hn⟩ := step_hardware_cases h
  · exact absurd rfl ha
  · simp at ha
  · obtain ⟨-, -, -, -, -, -, -, -, hbits⟩ := phaseStep_frame hn
    obtain ⟨hpos, hp⟩ := hbits a ha
    exact ⟨hpos, (decodePhase_sampling_iff s.phase).mpr hp, now, _, hf, hd⟩

/-- Settles O39: `phaseStep_frame` in a due `STEP`. -/
theorem configurationNeverChanges : Obligations.ConfigurationNeverChanges := by
  unfold Obligations.ConfigurationNeverChanges
  intro s t h
  obtain ⟨cs, rs, p, rfl⟩ | ⟨arg, -, rfl⟩ | ⟨now, -, -, hn⟩ := step_hardware_cases h
  · exact ⟨rfl, rfl⟩
  · simp
  · obtain ⟨-, hcfg, -, -, -, -, -, hlen, -⟩ := phaseStep_frame hn
    exact ⟨hcfg, hlen⟩

/-- Settles O40: `phaseStep_frame` keeps the time that the due `STEP` recorded. -/
theorem lastIsWrittenOnlyByADueStep : Obligations.LastIsWrittenOnlyByADueStep := by
  unfold Obligations.LastIsWrittenOnlyByADueStep
  intro s t h hne
  obtain ⟨cs, rs, p, rfl⟩ | ⟨arg, -, rfl⟩ | ⟨now, hf, hd, hn⟩ := step_hardware_cases h
  · exact absurd rfl hne
  · simp at hne
  · obtain ⟨hlast, -⟩ := phaseStep_frame hn
    exact ⟨now, _, hf, hd, hlast⟩

/-- Settles O43: a `READ` is the last case of `step_cases`; of the others none writes the results. -/
theorem resultsComeOnlyFromRead : Obligations.ResultsComeOnlyFromRead := by
  unfold Obligations.ResultsComeOnlyFromRead
  intro s t h
  obtain ⟨hf, rfl⟩ | ⟨arg, hf, rfl⟩ | ⟨arg, hf, rfl⟩ | ⟨now, hf, he⟩ | ⟨vpin, hf, rfl⟩ := step_cases h
  · exact .inr ⟨by simp [hf], rfl⟩
  · exact .inr ⟨by simp [hf], rfl⟩
  · exact .inr ⟨by simp [hf], by simp⟩
  · refine .inr ⟨by simp [hf], ?_⟩
    obtain ⟨-, -, ⟨-, rfl⟩ | ⟨-, hn⟩⟩ := execStep_cases he
    · rfl
    · obtain ⟨-, -, -, -, -, hres, -⟩ := phaseStep_frame hn
      exact hres
  · exact .inl ⟨vpin, _, _, hf, rfl⟩

/-! ### Steps that complete -/

/-- On schedule a `STEP` within the contract completes, due or not, and keeps its time as the time before. -/
theorem execStep_completes {now : Time} {s : State} (hs : scheduled s = true) (hi : s.inited = true)
    (hm : timeMonotonic s.prevNow now = true) :
    ∃ t, execStep now s = .next t ∧ t.inited = true ∧ t.commands = s.commands ∧ t.prevNow = some now := by
  cases hd : due s now with
  | false => exact ⟨_, execStep_notDue hi hm hd, hi, rfl, rfl⟩
  | true =>
    obtain ⟨t, hn, -⟩ := phaseStep_completes (s := recordTime now (noteTime now s)) (by simpa using hs)
    obtain ⟨-, -, -, hinited, hcmds, -, hprev, -⟩ := phaseStep_frame hn
    exact ⟨t, (execStep_due hi hm hd).trans hn, hinited.trans hi, hcmds, hprev⟩

theorem fetch_command {s : State} {w : HostWord} {rest : List HostWord} (h : s.commands = w :: rest) :
    fetch s = some (decodeHost w, takeCommand s) := by
  simp [fetch, h]

/-- Settles O35: of the four host operations only `STEP` can be refused, and `execStep_completes` rules that out. -/
theorem everyStepAfterInitCompletes : Obligations.EveryStepAfterInitCompletes := by
  unfold Obligations.EveryStepAfterInitCompletes
  intro s hs hi hm
  cases hc : s.commands with
  | nil => exact ⟨s, step_idle hc⟩
  | cons w rest =>
    have hf := fetch_command hc
    rw [step_command hc]
    obtain hw | hw | hw | hw := decodeHost_cases w <;> rw [hw] at hf ⊢
    · exact ⟨_, rfl⟩
    · exact ⟨_, rfl⟩
    · obtain ⟨t, ht, -⟩ := execStep_completes (s := takeCommand s) (by simpa using hs) hi (hm _ _ hf)
      exact ⟨t, ht⟩
    · exact ⟨_, rfl⟩

theorem keepsContract_init {w : HostWord} (h : hostOp w = 0b01#2) (inited : Bool) (prev : Option Time)
    (rest : List HostWord) :
    keepsContract inited prev (w :: rest) = (!inited && keepsContract true prev rest) := by
  simp [keepsContract, h]

theorem keepsContract_step {w : HostWord} (h : hostOp w = 0b10#2) (inited : Bool) (prev : Option Time)
    (rest : List HostWord) :
    keepsContract inited prev (w :: rest) =
      (inited && timeMonotonic prev (hostArg w) && keepsContract inited (some (hostArg w)) rest) := by
  simp [keepsContract, h]

/-- A word that is neither `INIT` nor `STEP` may stand anywhere. -/
theorem keepsContract_other {w : HostWord} (h₁ : hostOp w ≠ 0b01#2) (h₂ : hostOp w ≠ 0b10#2) (inited : Bool)
    (prev : Option Time) (rest : List HostWord) :
    keepsContract inited prev (w :: rest) = keepsContract inited prev rest := by
  simp [keepsContract, h₁, h₂]

/-- Settles O36: the four host operations in turn, the schedule by `step_scheduled`. -/
theorem contractRunsAreNeverRefused : Obligations.ContractRunsAreNeverRefused := by
  unfold Obligations.ContractRunsAreNeverRefused
  intro s hs hk
  suffices ∃ t, step s = .next t ∧ keepsContract t.inited t.prevNow t.commands = true ∧
      (∀ now s', fetch s = some (.step now, s') → t.prevNow = some now) ∧
      ((∀ now s', fetch s ≠ some (.step now, s')) → t.prevNow = s.prevNow) by
    obtain ⟨t, ht, hrest⟩ := this
    exact ⟨t, ht, step_scheduled hs ht, hrest⟩
  cases hc : s.commands with
  | nil => exact ⟨s, step_idle hc, hk, by simp [fetch, hc], fun _ => rfl⟩
  | cons w rest =>
    have hf := fetch_command hc
    have htail : (takeCommand s).commands = rest := by simp [hc]
    rw [hc] at hk
    rw [step_command hc, hf]
    obtain ⟨hop, hw⟩ | ⟨hop, hw⟩ | ⟨hop, hw⟩ | ⟨hop, hw⟩ := decodeHost_by_op w <;> rw [hw]
    · rw [keepsContract_other (by simp [hop]) (by simp [hop])] at hk
      exact ⟨_, rfl, htail ▸ hk, by simp, fun _ => rfl⟩
    · rw [keepsContract_init hop, Bool.and_eq_true] at hk
      obtain ⟨-, hk⟩ := hk
      exact ⟨_, exec_init _ _, by simpa [hc] using hk, by simp, fun _ => by simp⟩
    · rw [keepsContract_step hop, Bool.and_eq_true, Bool.and_eq_true] at hk
      obtain ⟨⟨hi, hm⟩, hk⟩ := hk
      obtain ⟨t, ht, hinited, hcmds, hprev⟩ := execStep_completes (s := takeCommand s) (by simpa using hs) hi hm
      refine ⟨t, ht, ?_, fun now s' h => ?_, fun h => absurd rfl (h _ _)⟩
      · rw [hi] at hk
        rwa [hinited, hprev, hcmds, htail]
      · cases h
        exact hprev
    · rw [keepsContract_other (by simp [hop]) (by simp [hop])] at hk
      exact ⟨_, rfl, htail ▸ hk, by simp, fun _ => rfl⟩

end Sys2Proof.Machine
end

section
/-! SUPPORT. A whole scan (R120): on schedule each sampling phase stores the next level, so that the phase steps left from
`PHASE = 0` store them all, in order, and end where the scan began. -/

namespace Sys2Proof.Machine

/-- Of the levels `fed`, answered before `rest`, the first `n` are stored, in order, and taken. -/
def fedStored (fed rest : List Level) (n : Nat) (s : State) : Prop :=
  s.dataIn = fed.drop n ++ rest ∧ ∀ k, k < n → some (memRead s.buf k) = fed[k]?

/-- On schedule the cursors address a bit of the scan (R35). -/
theorem position_lt_of_scheduled {s : State} (hs : scheduled s = true) : position s < 8 * s.cfg.modules := by
  have := mcount_lt_of_scheduled hs
  rw [← position_div] at this
  omega

/-- A phase step stores as many of the levels as the schedule says (R36 (b), R120). -/
theorem phaseStep_fedStored {s t : State} {fed rest : List Level} (hs : scheduled s = true)
    (hfed : fed.length = 8 * s.cfg.modules) (hst : fedStored fed rest (scheduledPosition s.phase) s)
    (hn : phaseStep s = .next t) : fedStored fed rest (scheduledPosition (s.phase + 1)) t := by
  obtain ⟨hdata, hread⟩ := hst
  by_cases hp : s.phase = 5 ∨ (13 ≤ s.phase ∧ s.phase % 2 = 1)
  · obtain ⟨-, -, -, hpos⟩ := (scheduled_iff s).mp hs
    have hlt : position s < fed.length := hfed ▸ position_lt_of_scheduled hs
    obtain ⟨hbuf, hdata'⟩ := phaseStep_stores hn hp
    rw [← hpos] at hdata hread
    rw [List.drop_eq_getElem_cons hlt, List.cons_append] at hdata
    rw [dataAnswer_cons (s := gpioWrite .clock false s) hdata] at hbuf
    rw [scheduledPosition_succ_of_sampling hp, ← hpos]
    refine ⟨by rw [hdata', hdata, List.tail_cons], fun k hk => ?_⟩
    rw [hbuf]
    rcases Nat.lt_succ_iff_lt_or_eq.mp hk with hk | rfl
    · rw [memRead_memWrite_ne _ _ _ _ hk.ne, hread k hk]
    · rw [memRead_memWrite_same _ _ _ (position_in_buffer hs), List.getElem?_eq_getElem hlt]
  · obtain ⟨hbuf, hdata'⟩ := phaseStep_keeps_buffer hn hp
    rw [scheduledPosition_succ_of_quiet (by omega) (by omega), fedStored, hbuf, hdata']
    exact ⟨hdata, hread⟩

theorem runPhases_succ {n : Nat} {s t : State} (h : phaseStep s = .next t) : runPhases (n + 1) s = runPhases n t := by
  simp [runPhases, h]

/-- All positions of the scan are passed when its last phase is (R8). -/
theorem scheduledPosition_end {n : Nat} (h : 0 < n) : scheduledPosition (16 * n + 9 + 1) = 8 * n := by
  rw [scheduledPosition, if_neg (by omega), if_neg (by omega)]
  omega

/-- The phase steps left to the end of the scan, `n` before the last one, store the levels left and return `PHASE` to 0 with
the outputs low. -/
theorem runPhases_to_end {fed rest : List Level} {s : State} (n : Nat) (hp : s.phase + n = 16 * s.cfg.modules + 9)
    (hs : scheduled s = true) (hfed : fed.length = 8 * s.cfg.modules)
    (hst : fedStored fed rest (scheduledPosition s.phase) s) :
    ∃ t, runPhases (n + 1) s = .next t ∧ scheduled t = true ∧ t.phase = 0 ∧ (∀ l, outLevel t l = false) ∧
      fedStored fed rest fed.length t ∧ t.cfg = s.cfg ∧ t.last = s.last := by
  induction n generalizing s with
  | zero =>
    have hN := modules_pos ((scheduled_iff s).mp hs).1
    obtain ⟨t, hn, -⟩ := phaseStep_completes hs
    have hlast : s.phase = 16 * s.cfg.modules + 9 := hp
    obtain ⟨hload, hclock, hreset⟩ := phaseStep_outputs hs hn
    obtain ⟨htime, hcfg, -⟩ := phaseStep_frame hn
    have hst' := phaseStep_fedStored hs hfed hst hn
    rw [hlast, scheduledPosition_end hN, ← hfed] at hst'
    refine ⟨t, runPhases_succ hn, phaseStep_scheduled hs hn, (phaseStep_phase hs hn).trans (if_pos hlast), fun l => ?_,
      hst', hcfg, htime⟩
    cases l with
    | clock => exact hclock.trans (by rw [if_neg (by omega), if_pos (by omega)])
    | load => exact hload.trans (by rw [if_neg (by omega), if_pos (by omega)])
    | reset => exact hreset.trans (by rw [if_neg (by omega), if_pos (by omega)])
  | succ n ih =>
    obtain ⟨t, hn, -⟩ := phaseStep_completes hs
    obtain ⟨htime, hcfg, -⟩ := phaseStep_frame hn
    have hphase : t.phase = s.phase + 1 := (phaseStep_phase hs hn).trans (if_neg (by omega))
    have hst' := phaseStep_fedStored hs hfed hst hn
    obtain ⟨u, hu, hsu, hpu, hout, hstu, hcfgu, htimeu⟩ := ih (by rw [hphase, hcfg]; omega)
      (phaseStep_scheduled hs hn) (by rw [hcfg, hfed]) (by rwa [hphase])
    exact ⟨u, (runPhases_succ hn).trans hu, hsu, hpu, hout, hstu, hcfgu.trans hcfg, htimeu.trans htime⟩

/-- Settles O44: `runPhases_to_end` from the first phase; the served pins lie in the scan by `modules_bounds`. -/
theorem oneScanStoresTheLevelsInOrder : Obligations.OneScanStoresTheLevelsInOrder := by
  unfold Obligations.OneScanStoresTheLevelsInOrder
  intro s fed rest hs hp hfed hdata
  have hN := modules_pos ((scheduled_iff s).mp hs).1
  obtain ⟨t, ht, hst, hpt, hout, ⟨hdrop, hread⟩, hcfg, hlast⟩ := runPhases_to_end (fed := fed) (rest := rest)
    (16 * s.cfg.modules + 9) (by omega) hs hfed (by rw [hp]; exact ⟨hdata, fun k hk => absurd hk (Nat.not_lt_zero k)⟩)
  obtain ⟨-, -, -, hpos⟩ := (scheduled_iff t).mp hst
  rw [← phases_eq hN] at ht
  refine ⟨t, ht, hst, hpt, by rw [hpos, hpt]; rfl, hout, by simpa using hdrop, hcfg, hlast, hread, fun k hk => ?_⟩
  obtain ⟨hle, -⟩ := modules_bounds s.cfg
  rw [readPin_of_served (by rw [hcfg]; omega) (by rw [hcfg]; omega), hcfg, add_sub_cancel_left, Int.toNat_natCast]
  exact hread k (by omega)

end Sys2Proof.Machine
end

section
/-! SUPPORT. The pinbuffer mapper at the ends of its ranges: the range check modulo `2^32` (R134), and the buffer bits that
no pin exposes (R135). -/

namespace Sys2Proof.Machine

/-- For a 32-bit operand the offset modulo `2^32` selects the pin that the integer offset selects: the served pins lie below
`2^16`, so an operand below `FIRST_VPIN` wraps past them (R134). -/
theorem readPin_modular {s : State} (hl : s.cfg.legal = true) (arg : Arg) :
    readPin s arg.toNat = (decide ((arg - BitVec.ofNat 32 s.cfg.firstVpin).toNat < s.cfg.pinCount) &&
      memRead s.buf (arg - BitVec.ofNat 32 s.cfg.firstVpin).toNat) := by
  obtain ⟨-, hrange, -⟩ := (legal_iff s.cfg).mp hl
  have hlt := arg.isLt
  have hsub : (arg - BitVec.ofNat 32 s.cfg.firstVpin).toNat = (2 ^ 32 - s.cfg.firstVpin + arg.toNat) % 2 ^ 32 := by
    rw [BitVec.toNat_sub, BitVec.toNat_ofNat, Nat.mod_eq_of_lt (by omega : s.cfg.firstVpin < 2 ^ 32)]
  by_cases h : s.cfg.firstVpin ≤ arg.toNat ∧ arg.toNat < s.cfg.firstVpin + s.cfg.pinCount
  · obtain ⟨h₁, h₂⟩ := h
    have hoff : ((arg.toNat : Int) - s.cfg.firstVpin).toNat = (arg - BitVec.ofNat 32 s.cfg.firstVpin).toNat := by omega
    rw [readPin_of_served (by omega) (by omega), hoff, decide_eq_true (by omega), Bool.true_and]
  · rw [readPin_of_unserved (by omega), decide_eq_false (by omega), Bool.false_and]

/-- Settles O9: `exec_read` with `readPin_modular`. -/
theorem modularRangeCheckAgrees : Obligations.ModularRangeCheckAgrees := by
  unfold Obligations.ModularRangeCheckAgrees
  intro arg s hl
  rw [exec_read, readPin_modular hl]
  rfl

/-- A bit past the last served pin is no pin's (R135). -/
theorem readPin_memWrite_unexposed {s : State} {a : Nat} (ha : s.cfg.pinCount ≤ a) (b : Level) (vpin : Int) :
    readPin { s with buf := memWrite s.buf a b } vpin = readPin s vpin := by
  by_cases h : s.cfg.firstVpin ≤ vpin ∧ vpin < s.cfg.firstVpin + s.cfg.pinCount
  · obtain ⟨h₁, h₂⟩ := h
    have hne : (vpin - s.cfg.firstVpin).toNat ≠ a := by omega
    calc readPin { s with buf := memWrite s.buf a b } vpin
        = memRead (memWrite s.buf a b) (vpin - s.cfg.firstVpin).toNat := readPin_of_served h₁ h₂
      _ = memRead s.buf (vpin - s.cfg.firstVpin).toNat := memRead_memWrite_ne _ _ _ _ hne
      _ = readPin s vpin := (readPin_of_served h₁ h₂).symm
  · have hout : vpin < s.cfg.firstVpin ∨ s.cfg.firstVpin + s.cfg.pinCount ≤ vpin := by omega
    calc readPin { s with buf := memWrite s.buf a b } vpin = false := readPin_of_unserved hout
      _ = readPin s vpin := (readPin_of_unserved hout).symm

/-- Settles O10: `exec_read` in both states, with the one bit of `readPin_memWrite_unexposed`. -/
theorem unexposedBitsAreNeverReturned : Obligations.UnexposedBitsAreNeverReturned := by
  unfold Obligations.UnexposedBitsAreNeverReturned
  intro vpin s a b ha
  refine ⟨BitVec.ofBool (readPin s vpin), exec_read vpin s, ?_⟩
  rw [exec_read, readPin_memWrite_unexposed ha]

end Sys2Proof.Machine
end
